-- ==== Sys2Proof/Word.lean ====
section
/-! DEFINITION. The word types of the station: what the manual treats as bits (Terms and Conventions of 00_scope.md, the
bit ranges of Tables 10-2, 10-4 and 10-7 to 10-10), and the index types of its fixed tables. -/
namespace Sys2Proof

abbrev Byte := BitVec 8
abbrev Half := BitVec 16
abbrev Word := BitVec 32
/-- A sequence number: 32-bit, compared modulo 2^32 (00_scope.md, Conventions). -/
abbrev Seq := BitVec 32
/-- A station number, 0 to 31 (R156). -/
abbrev Station := BitVec 5
/-- A byte offset of the 256 KiB station memory, 0 to 262143 (00_scope.md, Conventions). -/
abbrev Addr := BitVec 18

/-- A publication ring, 0 to 7. -/
abbrev RingIdx := Fin 8
/-- A subscription, 0 to 23. -/
abbrev SubIdx := Fin 24
/-- A request tag, 0 to 63. -/
abbrev TagIdx := Fin 64
/-- A line of the prefetch cache, 0 to 47. -/
abbrev LineIdx := Fin 48

end Sys2Proof
end

