-- ==== Sys2Proof/Syntax.lean ====
section
/-! DEFINITION. The commands of the station as syntax: one constructor of `Instr` per row of spec/opcode_table.json, with
the row's operands, and the parts of an arriving frame (Tables 10-1 to 10-4). -/
namespace Sys2Proof

/-- The twelve frame kinds of Table 10-3. -/
inductive FrameKind where
  | hello | announce | join | welcome | refuse | leave | evict | release | fetch | listing | pull | payload
  deriving DecidableEq, Repr

/-- The frame header of Table 10-2, less the kind (which the row of the opcode table, or `Frame.kind`, gives). A field
is as wide as its bit range, so that every value a peer can send, malformed ones among them, can be written. -/
structure Header where
  source      : Station
  dest        : Station
  broadcast   : Bool
  incarnation : Half
  epoch       : Half
  ring        : BitVec 3
  tag         : BitVec 6
  useCount    : BitVec 4
  /-- seq, first, start or mark, by kind -/
  seq         : Seq
  /-- count (FETCH, LISTING) or chunk (PULL, PAYLOAD) -/
  count       : BitVec 5
  length      : BitVec 9
  reason      : BitVec 4
  /-- the policy bit: true is NEWEST -/
  newest      : Bool
  deriving DecidableEq, Repr

/-- The tail block of Table 10-4. -/
structure TailBlock where
  tail     : Seq
  revision : Half
  state    : BitVec 2
  slotCode : Byte
  deriving DecidableEq, Repr

/-- A frame as it arrives at the LIU: the parts of Table 10-1, and whether its frame check passes at this receiver
(R158: each receiver checks for itself). `tail` is read only for the kinds that have a tail block. `body` is whatever
bytes stand between the tail block (or the header) and the frame check. -/
structure Arrival where
  key    : Byte
  header : Header
  tail   : TailBlock
  body   : List Byte
  intact : Bool
  deriving DecidableEq, Repr

/-- The kinds that the row REQUEST_FRAME gathers (R144). -/
inductive RequestKind where
  | join | fetch | pull
  deriving DecidableEq, Repr

/-- One constructor per row of spec/opcode_table.json.

A row that is a command of Table 9-4 carries the argument words the command uses: it stands for the local controller's
writes of those words to ARG0.., of the command's code to CMD, and of GO (section 9.5, "Issuing a command"). A frame row
carries the frame as it arrives. An expiry row carries the timer that ran out. A row of an engine (a serve, a turn, a
grant, a round, a delivery) carries nothing: the unit's own state says what it is about. -/
inductive Instr where
  /-- RESET (R173): assertion of RESET#, or power-on (`powerOn`). -/
  | reset (powerOn : Bool)
  /-- RESET_RELEASE (R174): the strap pins ST[4:0] and BR[1:0] at the release. -/
  | resetRelease (st : Station) (br : BitVec 2)
  | start
  | startCompletion
  | openRing (ring base count retain : Word)
  | advance (ring n : Word)
  | advanceCompletion
  | retract (ring t : Word)
  | withdraw (ring drain : Word)
  | ringStatus (ring view : Word)
  /-- JOIN (R27): word 3 carries the depth in bits 7..0 and the pull window in bits 15..8. -/
  | join (producer ring policy depthWindow : Word)
  | leave (sub : Word)
  /-- FLUSH (R77) of one subscription; the argument 255 is the row FLUSH_ALL. -/
  | flush (sub : Word)
  | flushAll
  | dismiss (sub : Word)
  | subStatus (sub view : Word)
  | accept (k : Word)
  | retire (sub seq : Word)
  /-- REGISTER_WRITE (R180, R190): LA[15:0], LD[31:0], and whether LRD# was asserted together with LWR#. -/
  | registerWrite (alsoRead : Bool) (la : Half) (ld : Word)
  /-- NTC0_READ (R185, R190): whether LWR# was asserted together with LRD#. -/
  | ntc0Read (alsoWrite : Bool)
  /-- LOCAL_MEMORY_ACCESS (R179, R190): the strobes LRD# and LWR#, LA[15:0] and LD[31:0]. -/
  | localMemoryAccess (lrd lwr : Bool) (la : Half) (ld : Word)
  /-- ARBITRATION (R157): the arbitration keys that the other stations offer. -/
  | arbitration (others : List Byte)
  | tagGrant
  | retryLineMove
  | deadlineExpiry (tag : TagIdx)
  | keepaliveExpiry (sub : SubIdx)
  | pollExpiry (sub : SubIdx)
  | silenceExpiry (ring : RingIdx) (member : Station)
  | drainExpiry (ring : RingIdx)
  /-- HELLO_FRAME (R34): the step of SBM for an arriving HELLO. -/
  | helloFrame (a : Arrival)
  /-- HELLO_ROSTER_REMOVAL (R137): the step of PUB for an arriving HELLO. -/
  | helloRosterRemoval (a : Arrival)
  | announceFrame (a : Arrival)
  | requestFrame (kind : RequestKind) (a : Arrival)
  | leaveFrame (a : Arrival)
  | releaseFrame (a : Arrival)
  | evictFrame (a : Arrival)
  | welcomeFrame (a : Arrival)
  | refuseFrame (a : Arrival)
  | listingFrame (a : Arrival)
  | payloadFrame (a : Arrival)
  | serveJoin
  | serveFetch
  | servePull
  | pullStart
  | chunkIssue
  | blockGrantRound
  | lineWaitRound
  | delivery
  /-- UNDEFINED_COMMAND_CODE (R181): GO with a command code that Table 9-4 does not hold. -/
  | undefinedCommandCode (code : Byte)
  deriving DecidableEq, Repr

end Sys2Proof
end

