-- ==== Sys2Proof/WellFormed.lean ====
section
/-! DEFINITION. Which terms of `Instr` stand for an event of the opcode table's row. Argument words are not checked here:
an argument out of its range is refused by the command's own rule, with a result code. -/
namespace Sys2Proof

/-- A command code of Table 9-4. -/
def definedCode (code : Byte) : Bool := decide (1 ≤ code.toNat) && decide (code.toNat ≤ 13)

/-- The row's own side condition: FLUSH with 255 is the row FLUSH_ALL (R77); UNDEFINED_COMMAND_CODE holds no code of
Table 9-4 (R181); a memory access asserts at least one strobe (R190); an arbitration key lies in 0 to 95 (R156). -/
def Instr.wf : Instr → Bool
  | .reset _ => true
  | .resetRelease _ _ => true
  | .start => true
  | .startCompletion => true
  | .openRing _ _ _ _ => true
  | .advance _ _ => true
  | .advanceCompletion => true
  | .retract _ _ => true
  | .withdraw _ _ => true
  | .ringStatus _ _ => true
  | .join _ _ _ _ => true
  | .leave _ => true
  | .flush sub => sub != 255
  | .flushAll => true
  | .dismiss _ => true
  | .subStatus _ _ => true
  | .accept _ => true
  | .retire _ _ => true
  | .registerWrite _ _ _ => true
  | .ntc0Read _ => true
  | .localMemoryAccess lrd lwr _ _ => lrd || lwr
  | .arbitration others => others.all fun k => decide (k.toNat ≤ 95)
  | .tagGrant => true
  | .retryLineMove => true
  | .deadlineExpiry _ => true
  | .keepaliveExpiry _ => true
  | .pollExpiry _ => true
  | .silenceExpiry _ _ => true
  | .drainExpiry _ => true
  | .helloFrame _ => true
  | .helloRosterRemoval _ => true
  | .announceFrame _ => true
  | .requestFrame _ _ => true
  | .leaveFrame _ => true
  | .releaseFrame _ => true
  | .evictFrame _ => true
  | .welcomeFrame _ => true
  | .refuseFrame _ => true
  | .listingFrame _ => true
  | .payloadFrame _ => true
  | .serveJoin => true
  | .serveFetch => true
  | .servePull => true
  | .pullStart => true
  | .chunkIssue => true
  | .blockGrantRound => true
  | .lineWaitRound => true
  | .delivery => true
  | .undefinedCommandCode code => !definedCode code

end Sys2Proof
end

