-- ==== Sys2Proof/Decode.lean ====
section
/-! DEFINITION. The commands that a word spells by the bits of spec/opcode_table.json. No row of the table gives bits
(every "fields" list is empty), so no word spells a command. -/
namespace Sys2Proof

/-- The command that the table's bits spell: none, for every word. -/
def decodeTableWord (_nbits _w : Nat) : Option Instr := none

end Sys2Proof
end

