-- ==== Sys2Proof/Config.lean ====
section
/-! DEFINITION. What an implementation fixes: the sizes the manual states, the configuration frozen at START, and the
free values (choices the manual leaves open, each an opaque constant that no proof can evaluate). -/
namespace Sys2Proof

/-- Size of station memory in bytes (00_scope.md). -/
def Config.memoryBytes : Nat := 262144
/-- Places of the notice queue (R183). -/
def Config.noticePlaces : Nat := 64
/-- Places of the one-off control FIFO (R162). -/
def Config.oneOffPlaces : Nat := 8
/-- Places of the reply transmit queue (R153). -/
def Config.replyPlaces : Nat := 8
/-- Places of the request transmit queue (R113). -/
def Config.requestPlaces : Nat := 16
/-- Places of the Serve Queue (R144). -/
def Config.servePlaces : Nat := 16
/-- Entries of one roster (R125). -/
def Config.rosterPlaces : Nat := 6
/-- Records one subscription may have delivered and unretired (R96). -/
def Config.unretiredLimit : Nat := 64

/-- The frozen configuration (Table 9-2). While it is absent every value reads as 0 and both enables are clear (R174),
which is `StartConfig.absent`. -/
structure StartConfig where
  incarnation    : Half
  requestTimeout : Nat
  retryLimit     : Nat
  keepalive      : Nat
  silenceLimit   : Nat
  pollInterval   : Nat
  minFetch       : Nat
  maxFetch       : Nat
  fetchesPerSub  : Nat
  releaseBatch   : Nat
  queueBase      : Nat
  queueCapacity  : Nat
  poolBase       : Nat
  poolBlocks     : Nat
  noticeEnable   : Bool
  deliveryEnable : Bool
  deriving DecidableEq, Repr

/-- The configuration before START succeeds: absent, read as zeros (R174). -/
def StartConfig.absent : StartConfig :=
  { incarnation := 0, requestTimeout := 0, retryLimit := 0, keepalive := 0, silenceLimit := 0, pollInterval := 0,
    minFetch := 0, maxFetch := 0, fetchesPerSub := 0, releaseBatch := 0, queueBase := 0, queueCapacity := 0,
    poolBase := 0, poolBlocks := 0, noticeEnable := false, deliveryEnable := false }

/-- What a byte of station memory reads as when nothing has written it since power-on. DESIGN CHOICE (log entry 1): the
manual says the contents are undefined after power-on (R85). -/
def Config.unwrittenByte : Byte := 0

/-- Free value (log entry 2): whether START has already read a word of the start record when a local write reaches that
word (R178 leaves it open). Applied to the fresh index `State.freeIndex`. -/
opaque Config.startWordRead : Nat → Bool

/-- Free value (log entry 3): how many further words ADVANCE validation has read when an event reaches what it reads
(R10, R13 and R179 leave it open). Applied to the fresh index `State.freeIndex`. -/
opaque Config.validationProgress : Nat → Nat

/-- Free value (log entry 4): whether two 16-bit values exactly 2^15 apart are taken as newer; the Conventions of
00_scope.md call neither of them newer, and R33 and R55 give no case for them. -/
opaque Config.oppositeIsNewer : Half → Half → Bool

/-- Free value (log entry 5): the block named by a chunk beyond the blocks that a grant allocated, when the held image's
length changed while the subscription waited for blocks (R75 and R90 together give no block). -/
opaque Config.unstatedBlock : Nat → Nat

end Sys2Proof
end

