-- ==== Sys2Proof/Machine/State.lean ====
section
/-! DEFINITION. The state of the station, unit by unit, as plain data, and the state after reset. -/
namespace Sys2Proof.Machine

/-- A fault stops the machine. The spec gives the station none, and no command of the model raises one, so the type has
no constructor (safe: nothing stops where the hardware goes on). -/
inductive Fault where
  deriving DecidableEq, Repr

/-- A refusal by the model. -/
inductive Refusal where
  /-- Raised by `exec` for a command that has no meaning yet (safe). -/
  | notModelled (mnemonic : String)
  deriving DecidableEq, Repr

/-- A timer: stopped, or running with the time units it still has to run. -/
abbrev Timer := Option Nat

/-! ### LPC (chapter 9) -/

/-- The three station states of R173. -/
inductive StationState where
  | reset | config | running
  deriving DecidableEq, Repr

/-- An ADVANCE that validates (R9, R10): its ring, batch start and batch length; the slots judged so far, all of which
passed; the words read of the slot being read; and, once a slot has failed, its index and check code (R11). -/
structure AdvanceRun where
  ring   : RingIdx
  start  : Seq
  length : Nat
  judged : Nat
  part   : List Word
  bad    : Option (Nat × Nat)
  deriving DecidableEq, Repr

/-- The command slot: idle (BUSY 0), or a START or an ADVANCE in progress (BUSY 1, R182). A START in progress holds, for
each of the 16 words of the start record, the value read when a local write reached the word after it was read (R178). -/
inductive SlotState where
  | idle
  | starting (captured : List (Nat × Word))
  | advancing (run : AdvanceRun)
  deriving DecidableEq, Repr

/-- The notice kinds of Table 9-6 that are queued. -/
inductive NoticeKind where
  | subActive | subFinishing | subEnded | flushDone | ringClosed | memberJoined | memberLeft | memberEvicted
  | peerRestarted | noticesLost
  deriving DecidableEq, Repr

/-- A notice (R183). -/
structure Notice where
  kind   : NoticeKind
  index  : Byte
  reason : Byte
  value  : Word
  deriving DecidableEq, Repr

/-- The Local Port Controller. `ld` is the word that the last read access returned on LD[31:0] (R190). -/
structure Lpc where
  state         : StationState
  stationNumber : Station
  bitRate       : BitVec 2
  config        : StartConfig
  cmd           : Byte
  arg0          : Word
  arg1          : Word
  arg2          : Word
  arg3          : Word
  res           : Byte
  res0          : Word
  res1          : Word
  slot          : SlotState
  notices       : List Notice
  ntc1          : Word
  lost          : Bool
  dropped       : Word
  ld            : Word
  deriving DecidableEq, Repr

/-! ### LIU (chapter 8) -/

/-- A complete frame as the station forms it (R191): the key follows from kind and source. -/
structure Frame where
  kind   : FrameKind
  header : Header
  tail   : TailBlock
  body   : List Byte
  deriving DecidableEq, Repr

/-- The Link Interface Unit. The request transmit queue stands with the tags in `Rqt`, which fills it. `transmitting` is
the frame that won the last arbitration, until the next arbitration or a reset (log entry 18). -/
structure Liu where
  oneOff       : List Frame
  replies      : List Frame
  announcePtr  : RingIdx
  releasePtr   : SubIdx
  transmitting : Option Frame
  deriving DecidableEq, Repr

/-! ### PUB (chapters 1, 6, 7) -/

/-- Ring states (R3). -/
inductive RingState where
  | closed | opened | withdrawing
  deriving DecidableEq, Repr

/-- A roster entry (Table 6-1). -/
structure Member where
  station     : Station
  incarnation : Half
  mark        : Seq
  silence     : Timer
  deriving DecidableEq, Repr

/-- A ring record (Table 1-1). The roster is kept by station number, lowest first (R125). -/
structure Ring where
  state           : RingState
  epoch           : Half
  revision        : Half
  slotBase        : Addr
  slotCount       : BitVec 10
  retain          : Bool
  tail            : Seq
  commit          : Seq
  reclaim         : Seq
  announcePending : Bool
  roster          : List Member
  drain           : Timer
  deriving DecidableEq, Repr

/-- The fields of a request, by kind (R144). -/
inductive RequestBody where
  | join (newest : Bool)
  | fetch (first : Seq) (count : Nat)
  | pull (seq : Seq) (chunk length : Nat)
  deriving DecidableEq, Repr

/-- An entry of the Serve Queue (R144). -/
structure ServeEntry where
  source      : Station
  incarnation : Half
  ring        : RingIdx
  epoch       : Half
  tag         : BitVec 6
  useCount    : BitVec 4
  body        : RequestBody
  deriving DecidableEq, Repr

/-- The Publication Unit. -/
structure Pub where
  rings      : Vector Ring 8
  serveQueue : List ServeEntry
  deriving DecidableEq, Repr

/-! ### The subscription record, shared by SBM, DPC, PDU and RQT (chapters 2 to 5) -/

/-- Subscription states (Table 2-2). -/
inductive SubState where
  | free | joining | active | finishing | leaving | ended
  deriving DecidableEq, Repr

/-- End reasons (Table 2-3). -/
inductive EndReason where
  | none | left | closed | evicted | restarted | epoch | fault | silent | refusedFull | refusedClosed
  deriving DecidableEq, Repr

/-- A descriptor image (R48): what a LISTING carries of a descriptor. `last` is the END flag. -/
structure Image where
  seq    : Seq
  length : Half
  fence  : Bool
  last   : Bool
  stamp  : Word
  deriving DecidableEq, Repr

/-- What PDU records of a descriptor in [DP, PP) (R87): its image, its blocks in index order, how many of its chunks have
been issued (they are issued in index order, R91), and which have arrived. -/
structure PullRecord where
  image   : Image
  blocks  : List Nat
  issued  : Nat
  arrived : List Nat
  deriving DecidableEq, Repr

/-- The request fields of a tag or a claim (Table 5-2). -/
inductive Request where
  | join (newest : Bool)
  | fetch (first : Seq) (count : Nat) (generation : Byte)
  | pull (seq : Seq) (chunk length block : Nat)
  deriving DecidableEq, Repr

/-- A subscription record: Tables 2-1, 3-3 and 4-1, PDU's record of the descriptors in [DP, PP), and RQT's waiting claims
of the subscription in the order they were made (R111). An absent field holds 0. -/
structure Sub where
  state         : SubState
  producer      : Station
  ring          : RingIdx
  newest        : Bool
  depth         : Nat
  window        : Nat
  incarnation   : Half
  epoch         : Half
  welcomed      : Bool
  rm            : Seq
  dp            : Seq
  pp            : Seq
  fp            : Seq
  ap            : Seq
  kt            : Seq
  revision      : Half
  generation    : Byte
  finalTail     : Option Seq
  reason        : EndReason
  undelivered   : Word
  poll          : Timer
  fetchesOut    : Nat
  flushPending  : Bool
  flushOwed     : Bool
  inFlushAll    : Bool
  lineWait      : Bool
  pullWait      : Bool
  pullsOut      : Nat
  issue         : Option (Seq × Nat)
  blockWait     : Option (Seq × Nat)
  keepalive     : Timer
  releasePending : Bool
  lastReported  : Seq
  pulls         : List PullRecord
  claims        : List Request
  deriving DecidableEq, Repr

/-- A FREE record whose flush generation is `g`: every other field absent or at its reset value (R24, R50, R87). -/
def Sub.fresh (g : Byte) : Sub :=
  { state := .free, producer := 0, ring := 0, newest := false, depth := 0, window := 0, incarnation := 0, epoch := 0,
    welcomed := false, rm := 0, dp := 0, pp := 0, fp := 0, ap := 0, kt := 0, revision := 0, generation := g,
    finalTail := none, reason := .none, undelivered := 0, poll := none, fetchesOut := 0, flushPending := false,
    flushOwed := false, inFlushAll := false, lineWait := false, pullWait := false, pullsOut := 0, issue := none,
    blockWait := none, keepalive := none, releasePending := false, lastReported := 0, pulls := [], claims := [] }

/-! ### DPC (chapter 3) -/

/-- An entry of a cache line (Table 3-1). -/
inductive Entry where
  | empty
  | asked
  | held (im : Image)
  | pulling (im : Image)
  | complete (im : Image)
  deriving DecidableEq, Repr

/-- A cache line (R48). The entries of a FREE or RESERVED line are all EMPTY, so they are not held. -/
inductive Line where
  | free
  | reserved (owner : SubIdx)
  | assigned (owner : SubIdx) (group : Seq) (entries : Vector Entry 8)
  deriving DecidableEq, Repr

/-- The Descriptor Prefetch Cache: its lines, the line-grant pointer (R66), and beside the flush-all set (R80) the
subscriptions added to it since it was last empty, no two alike, whose number is the added count, and the ended mark. Its
per-subscription fields stand in `Sub`. -/
structure Dpc where
  lines        : Vector Line 48
  lineGrantPtr : SubIdx
  flushAdded   : List SubIdx
  flushEnded   : Bool
  deriving DecidableEq, Repr

/-! ### RQT (chapter 5) -/

/-- What a bound tag holds (Table 5-1). The tag is SENT while its deadline timer runs, and QUEUED while it is stopped. -/
structure Binding where
  sub      : SubIdx
  request  : Request
  attempts : Nat
  deadline : Timer
  deriving DecidableEq, Repr

/-- A tag: FREE when nothing is bound (R109). -/
structure Tag where
  useCount : BitVec 4
  bound    : Option Binding
  deriving DecidableEq, Repr

/-- The Request Tracker, with the request transmit queue that it fills (R113, R166). -/
structure Rqt where
  tags        : Vector Tag 64
  queue       : List TagIdx
  retryLine   : List TagIdx
  tagPtr      : TagIdx
  tagGrantPtr : SubIdx
  deriving DecidableEq, Repr

/-! ### PDU (chapter 4) -/

/-- A Block Table entry (R85). -/
inductive Block where
  | free
  | filling (owner : SubIdx) (seq : Seq) (index : Nat)
  | delivered (owner : SubIdx) (seq : Seq) (index : Nat)
  deriving DecidableEq, Repr

/-- The Pull and Delivery Unit: Block Table, round pointers (R87) and Delivery Queue indices (R98). -/
structure Pdu where
  blocks        : List Block
  pullGrantPtr  : SubIdx
  blockGrantPtr : SubIdx
  deliveryPtr   : SubIdx
  capacity      : Nat
  writeIndex    : Nat
  readIndex     : Nat
  fill          : Nat
  deriving DecidableEq, Repr

/-! ### SMC and the whole station -/

/-- Station memory: the bytes that differ from `Config.unwrittenByte`, at strictly rising offsets. -/
abbrev Memory := List Host.Cell

/-- The station. `pending` is the queue of commands that wait, first in, first out; `freeIndex` counts the free values
drawn so far (the model's own field). -/
structure State where
  lpc       : Lpc
  liu       : Liu
  pub       : Pub
  subs      : Vector Sub 24
  dpc       : Dpc
  rqt       : Rqt
  pdu       : Pdu
  memory    : Memory
  pending   : List Instr
  freeIndex : Nat
  deriving DecidableEq, Repr

/-- LPC in RESET. R174 states these values at the release of RESET#; in RESET every register reads 0 (R173). -/
def Lpc.reset : Lpc :=
  { state := .reset, stationNumber := 0, bitRate := 0, config := .absent, cmd := 0, arg0 := 0, arg1 := 0, arg2 := 0,
    arg3 := 0, res := 0, res0 := 0, res1 := 0, slot := .idle, notices := [], ntc1 := 0, lost := false, dropped := 0,
    ld := 0 }

/-- LIU after reset (R169). -/
def Liu.reset : Liu :=
  { oneOff := [], replies := [], announcePtr := 0, releasePtr := 0, transmitting := none }

/-- A ring record after reset (R2). -/
def Ring.reset : Ring :=
  { state := .closed, epoch := 0, revision := 0, slotBase := 0, slotCount := 0, retain := false, tail := 0, commit := 0,
    reclaim := 0, announcePending := false, roster := [], drain := none }

/-- PUB after reset (R2, R144). -/
def Pub.reset : Pub := { rings := Vector.replicate 8 Ring.reset, serveQueue := [] }

/-- DPC after reset (R50). -/
def Dpc.reset : Dpc :=
  { lines := Vector.replicate 48 Line.free, lineGrantPtr := 0, flushAdded := [], flushEnded := false }

/-- RQT after reset (R109). -/
def Rqt.reset : Rqt :=
  { tags := Vector.replicate 64 { useCount := 0, bound := none }, queue := [], retryLine := [], tagPtr := 0,
    tagGrantPtr := 0 }

/-- PDU after reset (R85, R87, R98). -/
def Pdu.reset : Pdu :=
  { blocks := [], pullGrantPtr := 0, blockGrantPtr := 0, deliveryPtr := 0, capacity := 0, writeIndex := 0, readIndex := 0,
    fill := 0 }

/-- The machine right after power-on, RESET# asserted (R173; log entries 15 and 16). -/
def State.reset : State :=
  { lpc := .reset, liu := .reset, pub := .reset, subs := Vector.replicate 24 (Sub.fresh 0), dpc := .reset, rqt := .reset,
    pdu := .reset, memory := [], pending := [], freeIndex := 0 }

end Sys2Proof.Machine
end

