-- ==== Sys2Proof/Machine/Ops.lean ====
section
/-! DEFINITION. The named operations every unit uses: modular comparisons, station memory, record updates, the notice
queue, the one-off FIFO and the completion of a command. -/
namespace Sys2Proof.Machine

/-! ### Modular comparisons (00_scope.md, Conventions) -/

/-- `a` precedes `b`: (b − a) mod 2^32 lies in 1 to 2^31 − 1. -/
def seqBefore (a b : Seq) : Bool := decide (1 ≤ (b - a).toNat) && decide ((b - a).toNat < 2147483648)

/-- `a` precedes `b` or equals it. -/
def seqUpTo (a b : Seq) : Bool := decide ((b - a).toNat < 2147483648)

/-- `q` lies in [a, b). -/
def inRange (a b q : Seq) : Bool := decide ((q - a).toNat < (b - a).toNat)

/-- `q` lies in [a, b]. -/
def inClosed (a b q : Seq) : Bool := decide ((q - a).toNat ≤ (b - a).toNat)

/-- The lower of two sequences, where one precedes the other. -/
def seqMin (a b : Seq) : Seq := if seqBefore b a then b else a

/-- The higher of two sequences, where one precedes the other. -/
def seqMax (a b : Seq) : Seq := if seqBefore a b then b else a

/-- `e` is taken as newer than `f`: (e − f) mod 2^16 lies in 1 to 2^15 − 1; at exactly 2^15 the choice is free (log 4). -/
def newer (e f : Half) : Bool :=
  if (e - f).toNat = 32768 then Config.oppositeIsNewer e f
  else decide (1 ≤ (e - f).toNat) && decide ((e - f).toNat < 32768)

/-- The indices after `p`, in order, returning past the last to the first and ending with `p` itself: the order of every
round-robin of the manual (R66, R88, R90, R96, R112, R161). -/
def after {n : Nat} (p : Fin n) : List (Fin n) :=
  (List.finRange n).drop (p.val + 1) ++ (List.finRange n).take (p.val + 1)

/-- A function at every place of a table. -/
def mapTable {α β : Type} {n : Nat} (f : α → β) (v : Vector α n) : Vector β n := ⟨⟨v.toList.map f⟩, by simp⟩

/-- A timer has run out: it runs, and its count is 0. A restarted timer has not run out, whatever it did before (R103, R120,
R135). -/
def Timer.due : Timer → Bool
  | some 0 => true
  | _ => false

/-- Repeat an operation that answers none when there is nothing to do, at most `fuel` times. -/
def repeatWhile (f : State → Option State) : Nat → State → State
  | 0, s => s
  | fuel + 1, s =>
    match f s with
    | none => s
    | some s' => repeatWhile f fuel s'

/-! ### Station memory -/

/-- The byte at an offset. -/
def Memory.read : Memory → Nat → Byte
  | [], _ => Config.unwrittenByte
  | (k, b) :: m, a => if k = a then b else Memory.read m a

/-- Write a byte, keeping the canonical form. -/
def Memory.write : Memory → Nat → Byte → Memory
  | [], a, b => if b = Config.unwrittenByte then [] else [(a, b)]
  | (k, c) :: m, a, b =>
    if a < k then (if b = Config.unwrittenByte then (k, c) :: m else (a, b) :: (k, c) :: m)
    else if a = k then (if b = Config.unwrittenByte then m else (a, b) :: m)
    else (k, c) :: Memory.write m a b

/-- The canonical form: offsets below the memory's size, strictly rising, no entry equal to the unwritten byte. -/
def Memory.wfFrom : Nat → Memory → Bool
  | _, [] => true
  | low, (k, b) :: m =>
    decide (low ≤ k) && decide (k < Config.memoryBytes) && b != Config.unwrittenByte && Memory.wfFrom (k + 1) m

/-- The canonical form of a whole memory. -/
def Memory.wf (m : Memory) : Bool := Memory.wfFrom 0 m

/-- The station-memory offset of a count of bytes. -/
def addr (n : Nat) : Addr := BitVec.ofNat 18 n

/-- The byte at an offset of station memory. -/
def State.byteAt (s : State) (a : Addr) : Byte := s.memory.read a.toNat

/-- `n` bytes from offset `a` upward. -/
def State.bytesAt (s : State) (a : Addr) (n : Nat) : List Byte := (List.range n).map fun i => s.byteAt (a + addr i)

/-- Write one byte. -/
def State.putByte (s : State) (a : Addr) (b : Byte) : State := { s with memory := s.memory.write a.toNat b }

/-- Write bytes from offset `a` upward. -/
def State.putBytes (s : State) (a : Addr) : List Byte → State
  | [] => s
  | b :: bs => State.putBytes (s.putByte a b) (a + 1) bs

/-! ### Byte order: little-endian throughout (00_scope.md, Byte order) -/

/-- Two bytes, least significant first, as a 16-bit value. -/
def half (b0 b1 : Byte) : Half := b1 ++ b0

/-- Four bytes, least significant first, as a 32-bit value. -/
def word (b0 b1 b2 b3 : Byte) : Word := b3 ++ b2 ++ b1 ++ b0

/-- The bytes of a 16-bit value, least significant first. -/
def halfBytes (h : Half) : List Byte := [h.extractLsb' 0 8, h.extractLsb' 8 8]

/-- The bytes of a 32-bit value, least significant first. -/
def wordBytes (w : Word) : List Byte :=
  [w.extractLsb' 0 8, w.extractLsb' 8 8, w.extractLsb' 16 8, w.extractLsb' 24 8]

/-- The 16-bit value at an offset. -/
def State.halfAt (s : State) (a : Addr) : Half := half (s.byteAt a) (s.byteAt (a + 1))

/-- The 32-bit value at an offset. -/
def State.wordAt (s : State) (a : Addr) : Word :=
  word (s.byteAt a) (s.byteAt (a + 1)) (s.byteAt (a + 2)) (s.byteAt (a + 3))

/-! ### Records of the tables -/

/-- A ring record. -/
def State.ring (s : State) (r : RingIdx) : Ring := s.pub.rings.get r

/-- Change a ring record. -/
def State.modRing (s : State) (r : RingIdx) (f : Ring → Ring) : State :=
  { s with pub := { s.pub with rings := s.pub.rings.set r (f (s.ring r)) } }

/-- A subscription record. -/
def State.sub (s : State) (i : SubIdx) : Sub := s.subs.get i

/-- Change a subscription record. -/
def State.modSub (s : State) (i : SubIdx) (f : Sub → Sub) : State := { s with subs := s.subs.set i (f (s.sub i)) }

/-- A tag. -/
def State.tag (s : State) (t : TagIdx) : Tag := s.rqt.tags.get t

/-- Change a tag. -/
def State.modTag (s : State) (t : TagIdx) (f : Tag → Tag) : State :=
  { s with rqt := { s.rqt with tags := s.rqt.tags.set t (f (s.tag t)) } }

/-- The frozen configuration, as the units read it (R174, R177). -/
def State.config (s : State) : StartConfig := s.lpc.config

/-- The station is RUNNING (R173). -/
def State.running (s : State) : Bool := s.lpc.state == .running

/-- A ring number of a command (R7, R9, R14, R22, R138). -/
def ringOfWord (w : Word) : Option RingIdx := if h : w.toNat < 8 then some ⟨w.toNat, h⟩ else none

/-- A subscription index of a command (R41, R46, R47, R77, R100). -/
def subOfWord (w : Word) : Option SubIdx := if h : w.toNat < 24 then some ⟨w.toNat, h⟩ else none

/-- The ring that a header's ring field names. -/
def ringOfField (r : BitVec 3) : RingIdx := ⟨r.toNat, r.isLt⟩

/-- The header's ring field for a ring. -/
def ringField (r : RingIdx) : BitVec 3 := BitVec.ofNat 3 r.val

/-- The tag that a header's tag field names. -/
def tagOfField (t : BitVec 6) : TagIdx := ⟨t.toNat, t.isLt⟩

/-- A subscription or a ring as a notice's index (R183). -/
def noticeIndex {n : Nat} (i : Fin n) : Byte := BitVec.ofNat 8 i.val

/-! ### Notices (R183, R184) -/

/-- Post a notice: it joins the tail, or is dropped when the queue holds 64 (R184; the count stops at 2^32 − 1). -/
def State.post (s : State) (n : Notice) : State :=
  if s.lpc.notices.length < Config.noticePlaces then { s with lpc := { s.lpc with notices := s.lpc.notices ++ [n] } }
  else { s with lpc := { s.lpc with lost := true, dropped := if s.lpc.dropped = 0xFFFFFFFF then 0xFFFFFFFF else s.lpc.dropped + 1 } }

/-- Post a notice about a subscription. -/
def State.postSub (s : State) (k : NoticeKind) (i : SubIdx) (reason : Byte) (value : Word) : State :=
  s.post { kind := k, index := noticeIndex i, reason := reason, value := value }

/-- Post a notice about a ring. -/
def State.postRing (s : State) (k : NoticeKind) (r : RingIdx) (reason : Byte) (value : Word) : State :=
  s.post { kind := k, index := noticeIndex r, reason := reason, value := value }

/-! ### The one-off control FIFO (R162) -/

/-- Place a control frame at the tail of the one-off FIFO; it is dropped when the FIFO holds 8. -/
def State.placeOneOff (s : State) (f : Frame) : State :=
  if s.liu.oneOff.length < Config.oneOffPlaces then { s with liu := { s.liu with oneOff := s.liu.oneOff ++ [f] } } else s

/-- No tail block, and what a kind without one holds. -/
def zeroTail : TailBlock := { tail := 0, revision := 0, state := 0, slotCode := 0 }

/-- A header of this station with every field that the kind does not use 0 (R191). -/
def State.header (s : State) : Header :=
  { source := s.lpc.stationNumber, dest := 0, broadcast := false, incarnation := s.config.incarnation, epoch := 0, ring := 0,
    tag := 0, useCount := 0, seq := 0, count := 0, length := 0, reason := 0, newest := false }

/-- A frame with a header only. -/
def headerFrame (k : FrameKind) (h : Header) : Frame := { kind := k, header := h, tail := zeroTail, body := [] }

/-! ### Completing a command (R182) -/

/-- The result codes of Table 9-5. -/
inductive ResultCode where
  | ok | state | badArg | noRoom | duplicate | self | ringFull | badDescriptor | belowCommit | order | pending | overlap
  | badConfig
  deriving DecidableEq, Repr

/-- The code of a result (Table 9-5). -/
def ResultCode.code : ResultCode → Byte
  | .ok => 0 | .state => 1 | .badArg => 2 | .noRoom => 3 | .duplicate => 4 | .self => 5 | .ringFull => 6
  | .badDescriptor => 7 | .belowCommit => 8 | .order => 9 | .pending => 10 | .overlap => 11 | .badConfig => 12

/-- A command completes: RES, RES0 and RES1 are written and BUSY falls (R182). -/
def State.finish (s : State) (c : ResultCode) (w0 w1 : Word) : State :=
  { s with lpc := { s.lpc with res := c.code, res0 := w0, res1 := w1, slot := .idle } }

/-- The outcome of every command: the block goes on. -/
abbrev Result := Host.Outcome State Fault Refusal

end Sys2Proof.Machine
end

