-- ==== Sys2Proof/Machine/Operands.lean ====
section
/-! DEFINITION. The records of station memory and of LISTING bodies (Tables 10-6 to 10-9), placement (R6), the slot checks
(Table 1-4), the start record's judgement (Table 9-2), and the form checks on arriving frames (R194). -/
namespace Sys2Proof.Machine

/-! ### Areas and placement (R6) -/

/-- [base, base + size) lies inside memory. An area of no bytes does. -/
def insideMemory (base size : Nat) : Bool := decide (size = 0) || decide (base + size ≤ Config.memoryBytes)

/-- Two areas share at least one byte (00_scope.md, Station memory offsets). -/
def areasOverlap (b1 n1 b2 n2 : Nat) : Bool :=
  decide (0 < n1) && decide (0 < n2) && decide (b1 < b2 + n2) && decide (b2 < b1 + n1)

/-- The fixed regions frozen at START: start record, Delivery Queue area, block pool area (R6). -/
def fixedRegions (c : StartConfig) : List (Nat × Nat) :=
  [(0, 64), (c.queueBase, 48 * c.queueCapacity), (c.poolBase, 256 * c.poolBlocks)]

/-- The slot area of a ring record. -/
def Ring.slotArea (r : Ring) : Nat × Nat := (r.slotBase.toNat, 16 * r.slotCount.toNat)

/-- The slot areas that placement counts: those of the rings that are OPEN or WITHDRAWING (R6). -/
def State.publishedAreas (s : State) : List (Nat × Nat) :=
  (s.pub.rings.toList.filter fun r => r.state != .closed).map Ring.slotArea

/-- An area overlaps one of a list of areas. -/
def overlapsAny (base size : Nat) (areas : List (Nat × Nat)) : Bool := areas.any fun p => areasOverlap base size p.1 p.2

/-! ### The descriptor slot (R4, Table 10-7) -/

/-- The first byte of the slot of sequence `q`. -/
def Ring.slotAddr (r : Ring) (q : Seq) : Addr := r.slotBase + addr (16 * (q.toNat % r.slotCount.toNat))

/-- What the local controller writes in a slot. -/
structure Slot where
  offset : Word
  length : Half
  flags  : Byte
  stamp  : Word
  deriving DecidableEq, Repr

/-- A slot from its first three words. -/
def slotOfWords (w0 w1 w2 : Word) : Slot :=
  { offset := w0, length := w1.extractLsb' 0 16, flags := w1.extractLsb' 16 8, stamp := w2 }

/-- The slot of a sequence, as memory holds it. -/
def State.slotAt (s : State) (r : Ring) (q : Seq) : Slot :=
  slotOfWords (s.wordAt (r.slotAddr q)) (s.wordAt (r.slotAddr q + 4)) (s.wordAt (r.slotAddr q + 8))

/-- The checks of Table 1-4 in their order: none when the slot passes, else the check code. A payload of length 0 occupies
no bytes and passes RANGE and OVERLAP at any offset (R6, R10). -/
def State.slotCheck (s : State) (d : Slot) : Option Nat :=
  if 4096 < d.length.toNat then some 1
  else if d.flags.extractLsb' 2 6 ≠ 0 then some 2
  else if d.offset.toNat % 4 ≠ 0 then some 3
  else if !insideMemory d.offset.toNat d.length.toNat then some 4
  else if overlapsAny d.offset.toNat d.length.toNat (fixedRegions s.config ++ s.publishedAreas) then some 5
  else none

/-! ### Descriptor images (Table 10-6) -/

/-- The flags byte of an image or a delivery record: bit 0 FENCE, bit 1 END. -/
def flagsByte (fence last : Bool) : Byte := (BitVec.ofBool last ++ BitVec.ofBool fence).setWidth 8

/-- The image the serve engine places for sequence `q` (R148): the sequence it serves, and length, FENCE, END and stamp as
the slot holds them. -/
def imageOfSlot (q : Seq) (d : Slot) : Image :=
  { seq := q, length := d.length, fence := d.flags.getLsbD 0, last := d.flags.getLsbD 1, stamp := d.stamp }

/-- The 16 bytes of an image. -/
def Image.bytes (im : Image) : List Byte :=
  wordBytes im.seq ++ halfBytes im.length ++ [flagsByte im.fence im.last, 0] ++ wordBytes im.stamp ++ [0, 0, 0, 0]

/-- An image as a LISTING body carries it: the image and its whole flags byte. A shorter tail of bytes holds none. -/
def parseImages : List Byte → List (Image × Byte)
  | b0 :: b1 :: b2 :: b3 :: b4 :: b5 :: b6 :: _ :: b8 :: b9 :: b10 :: b11 :: _ :: _ :: _ :: _ :: rest =>
    ({ seq := word b0 b1 b2 b3, length := half b4 b5, fence := b6.getLsbD 0, last := b6.getLsbD 1,
       stamp := word b8 b9 b10 b11 }, b6) :: parseImages rest
  | _ => []

/-- The images of a LISTING body. -/
def bodyImages (body : List Byte) : List Image := (parseImages body).map Prod.fst

/-- ceil(length / 256): the chunks, and the blocks, of a descriptor (R89, R91, R97). -/
def chunkCount (length : Nat) : Nat := (length + 255) / 256

/-- The length of chunk `i` of a descriptor (R91). -/
def chunkLength (length i : Nat) : Nat := if i + 1 = chunkCount length then length - 256 * i else 256

/-! ### The delivery record (R97, Table 10-9) -/

/-- The 48 bytes of a delivery record. -/
def deliveryRecord (i : SubIdx) (b : Sub) (p : PullRecord) : List Byte :=
  [BitVec.ofNat 8 i.val, b.producer.setWidth 8, (ringField b.ring).setWidth 8, flagsByte p.image.fence p.image.last] ++
  wordBytes p.image.seq ++ wordBytes p.image.stamp ++ halfBytes p.image.length ++
  [BitVec.ofNat 8 (chunkCount p.image.length.toNat), 0] ++
  (List.range 16).flatMap fun k =>
    if k < chunkCount p.image.length.toNat then halfBytes (BitVec.ofNat 16 (p.blocks.getD k 0)) else [0, 0]

/-! ### The start record (R175, Tables 9-2 and 10-8) -/

/-- The start record as START read it: its first eight words, which hold every field. -/
structure StartRecord where
  w0 : Word
  w1 : Word
  w2 : Word
  w3 : Word
  w4 : Word
  w5 : Word
  w6 : Word
  w7 : Word
  deriving DecidableEq, Repr

/-- The value read for each field, by its index in Table 9-2, from its bytes in Table 10-8. -/
def StartRecord.field (r : StartRecord) : Nat → Nat
  | 1 => (r.w0.extractLsb' 0 16).toNat
  | 2 => (r.w0.extractLsb' 16 16).toNat
  | 3 => (r.w2.extractLsb' 16 8).toNat
  | 4 => (r.w1.extractLsb' 0 16).toNat
  | 5 => (r.w1.extractLsb' 16 16).toNat
  | 6 => (r.w2.extractLsb' 0 16).toNat
  | 7 => (r.w2.extractLsb' 24 8).toNat
  | 8 => (r.w3.extractLsb' 0 8).toNat
  | 9 => (r.w3.extractLsb' 8 8).toNat
  | 10 => (r.w3.extractLsb' 16 8).toNat
  | 11 => r.w4.toNat
  | 12 => (r.w5.extractLsb' 0 16).toNat
  | 13 => r.w6.toNat
  | 14 => (r.w7.extractLsb' 0 16).toNat
  | 15 => (r.w3.extractLsb' 24 8).toNat
  | _ => 0

/-- `lo ≤ n ≤ hi`. -/
def within (n lo hi : Nat) : Bool := decide (lo ≤ n) && decide (n ≤ hi)

/-- Whether a field passes its range or rule (Table 9-2). -/
def StartRecord.passes (r : StartRecord) : Nat → Bool
  | 1 => true
  | 2 => within (r.field 2) 1 1000
  | 3 => within (r.field 3) 0 7
  | 4 => within (r.field 4) 10 65535
  | 5 => within (r.field 5) 10 65535 && decide (r.field 4 < r.field 5)
  | 6 => within (r.field 6) 10 65535
  | 7 => within (r.field 7) 1 8
  | 8 => within (r.field 8) 1 16 && decide (r.field 7 ≤ r.field 8)
  | 9 => within (r.field 9) 1 2
  | 10 => within (r.field 10) 1 64
  | 11 => r.field 11 % 16 == 0
  | 12 => within (r.field 12) 16 512 && insideMemory (r.field 11) (48 * r.field 12) &&
      !areasOverlap (r.field 11) (48 * r.field 12) 0 64
  | 13 => r.field 13 % 256 == 0
  | 14 => within (r.field 14) 16 512 && insideMemory (r.field 13) (256 * r.field 14) &&
      !areasOverlap (r.field 13) (256 * r.field 14) 0 64 &&
      !areasOverlap (r.field 13) (256 * r.field 14) (r.field 11) (48 * r.field 12)
  | 15 => decide (r.field 15 < 4)
  | _ => true

/-- The index of the first field that fails, in index order (R176). -/
def StartRecord.firstBad (r : StartRecord) : Option Nat :=
  [1, 2, 3, 4, 5, 6, 7, 8, 9, 10, 11, 12, 13, 14, 15].find? fun i => !r.passes i

/-- The configuration that a record of passing fields freezes (R177). -/
def StartRecord.toConfig (r : StartRecord) : StartConfig :=
  { incarnation := r.w0.extractLsb' 0 16, requestTimeout := r.field 2, retryLimit := r.field 3, keepalive := r.field 4,
    silenceLimit := r.field 5, pollInterval := r.field 6, minFetch := r.field 7, maxFetch := r.field 8,
    fetchesPerSub := r.field 9, releaseBatch := r.field 10, queueBase := r.field 11, queueCapacity := r.field 12,
    poolBase := r.field 13, poolBlocks := r.field 14, noticeEnable := r.w3.getLsbD 24, deliveryEnable := r.w3.getLsbD 25 }

/-! ### The form of a frame (Tables 10-1 to 10-5, R194) -/

/-- The class of a kind (Tables 8-1 and 10-3): 0 control, 1 reply, 2 request. -/
def kindClass : FrameKind → Nat
  | .hello | .announce | .leave | .evict | .release => 0
  | .welcome | .refuse | .listing | .payload => 1
  | .join | .fetch | .pull => 2

/-- The kind code of Table 10-3. -/
def kindCode : FrameKind → BitVec 4
  | .hello => 1 | .announce => 2 | .join => 3 | .welcome => 4 | .refuse => 5 | .leave => 6 | .evict => 7 | .release => 8
  | .fetch => 9 | .listing => 10 | .pull => 11 | .payload => 12

/-- The kinds sent to all stations (Table 10-2, broadcast). -/
def kindBroadcast : FrameKind → Bool
  | .hello | .announce => true
  | _ => false

/-- The kinds with a tail block (Table 10-1). -/
def kindHasTail : FrameKind → Bool
  | .announce | .welcome | .listing => true
  | _ => false

/-- The arbitration key: class × 32 + source (R156). -/
def arbitrationKey (k : FrameKind) (source : Station) : Byte := BitVec.ofNat 8 (kindClass k * 32 + source.toNat)

/-- The body length that a kind and its header require (R194, check 4). -/
def bodyLength (k : FrameKind) (h : Header) : Nat :=
  match k with
  | .listing => 16 * h.count.toNat
  | .payload => h.length.toNat
  | _ => 0

/-- Check 7 on the images of a LISTING: each seq is first + its position, no length is above 4096, and no flag bit but
FENCE and END is set. -/
def imagesFormed (first : Seq) : List (Image × Byte) → Bool
  | [] => true
  | (im, fl) :: rest =>
    im.seq == first && decide (im.length.toNat ≤ 4096) && fl.extractLsb' 2 6 == 0 && imagesFormed (first + 1) rest

/-- Checks 5 to 9 of R194, by kind. -/
def kindFormed (k : FrameKind) (a : Arrival) : Bool :=
  match k with
  | .announce => a.tail.state == 1 || a.tail.state == 2
  | .welcome => (a.tail.state == 1 || a.tail.state == 2) && decide (a.tail.slotCode.toNat ≤ 5)
  | .fetch => decide (a.header.count.toNat ≤ 16)
  | .listing => (a.tail.state == 1 || a.tail.state == 2) && decide (a.header.count.toNat ≤ 16) &&
      imagesFormed a.header.seq (parseImages a.body)
  | .pull | .payload => decide (a.header.count.toNat ≤ 15) && within a.header.length.toNat 1 256 &&
      decide (a.header.count.toNat * 256 + a.header.length.toNat ≤ 4096)
  | .refuse => within a.header.reason.toNat 1 6
  | _ => true

/-- Step 4 of the receive filter: every check of R194 passes. (Check 1, an undefined kind, is a frame of no row.) -/
def wellFormedArrival (k : FrameKind) (a : Arrival) : Bool :=
  a.key == arbitrationKey k a.header.source && a.header.broadcast == kindBroadcast k &&
  decide (a.body.length = bodyLength k a.header) && kindFormed k a

end Sys2Proof.Machine
end

