-- ==== Sys2Proof/Machine/Flags.lean ====
section
/-! DEFINITION. The status words, register reads and the INT# line: views computed from the state (R22, R47, R180, R185,
R188). -/
namespace Sys2Proof.Machine

/-! ### Codes -/

/-- The station state in STAT (Table 9-3). -/
def StationState.code : StationState → BitVec 2
  | .reset => 0 | .config => 1 | .running => 2

/-- The ring state of RING_STATUS (Table 1-5) and of a tail block (Table 10-4). -/
def RingState.code : RingState → BitVec 2
  | .closed => 0 | .opened => 1 | .withdrawing => 2

/-- The subscription state of SUB_STATUS (Table 2-5). -/
def SubState.code : SubState → BitVec 3
  | .free => 0 | .joining => 1 | .active => 2 | .finishing => 3 | .leaving => 4 | .ended => 5

/-- The end reason (Table 2-3). -/
def EndReason.code : EndReason → BitVec 4
  | .none => 0 | .left => 1 | .closed => 2 | .evicted => 3 | .restarted => 4 | .epoch => 5 | .fault => 6 | .silent => 7
  | .refusedFull => 8 | .refusedClosed => 9

/-- The end reason as a notice's reason byte. -/
def EndReason.byte (e : EndReason) : Byte := e.code.setWidth 8

/-- The notice kind (Table 9-6). -/
def NoticeKind.code : NoticeKind → Byte
  | .subActive => 1 | .subFinishing => 2 | .subEnded => 3 | .flushDone => 4 | .ringClosed => 5 | .memberJoined => 6
  | .memberLeft => 7 | .memberEvicted => 8 | .peerRestarted => 9 | .noticesLost => 10

/-- A notice's kind, index and reason as NTC0 returns them (Table 10-10). -/
def Notice.ntc0 (n : Notice) : Word := (0#8 ++ n.reason ++ n.index ++ n.kind.code : BitVec (8 + 8 + 8 + 8))

/-! ### The status word and the register window (R180) -/

/-- BUSY (R181, R182): a command is in progress. -/
def State.busy (s : State) : Bool := s.lpc.slot != .idle

/-- The bit-rate code of the BR straps (R189): 2 for both 10 and 11. -/
def bitRateCode (br : BitVec 2) : BitVec 2 := if br = 3 then 2 else br

/-- STAT (Table 9-3). -/
def State.stat (s : State) : Word :=
  (0#14 ++ s.lpc.bitRate ++ s.lpc.stationNumber ++ BitVec.ofNat 7 s.lpc.notices.length ++ BitVec.ofBool s.lpc.lost ++
    s.lpc.state.code ++ BitVec.ofBool s.busy : BitVec (14 + 2 + 5 + 7 + 1 + 2 + 1))

/-- The word that a read of the register at offset LA[3:0] returns (Table 9-3); every register reads 0 in RESET (R173).
The side effect of reading NTC0 belongs to NTC0_READ. -/
def State.readRegister (s : State) (offset : BitVec 4) : Word :=
  if s.lpc.state = .reset then 0
  else
    match offset.toNat with
    | 0 => s.lpc.cmd.setWidth 32
    | 1 => s.lpc.arg0
    | 2 => s.lpc.arg1
    | 3 => s.lpc.arg2
    | 4 => s.lpc.arg3
    | 6 => s.stat
    | 7 => s.lpc.res.setWidth 32
    | 8 => s.lpc.res0
    | 9 => s.lpc.res1
    | 10 => match s.lpc.notices with
      | [] => 0
      | n :: _ => n.ntc0
    | 11 => s.lpc.ntc1
    | _ => 0

/-- INT# is asserted (R188). The enables are clear while the configuration is absent. -/
def State.intAsserted (s : State) : Bool :=
  (!s.lpc.notices.isEmpty && s.config.noticeEnable) || (decide (0 < s.pdu.fill) && s.config.deliveryEnable)

/-! ### RING_STATUS (R22, Table 1-5) -/

/-- View 0, word 1. -/
def Ring.statusWord (r : Ring) : Word :=
  (0#6 ++ BitVec.ofBool r.announcePending ++ BitVec.ofNat 3 r.roster.length ++ r.state.code ++
    (r.tail - r.reclaim).setWidth 10 ++ (r.tail - r.commit).setWidth 10 : BitVec (6 + 1 + 3 + 2 + 10 + 10))

/-- View 1, word 1. -/
def Ring.areaWord (r : Ring) : Word :=
  (0#3 ++ BitVec.ofBool r.retain ++ r.slotCount ++ r.slotBase : BitVec (3 + 1 + 10 + 18))

/-- The two result words of a view, none for a view that does not exist. -/
def Ring.view (r : Ring) (view : Word) : Option (Word × Word) :=
  if view = 0 then some (r.tail, r.statusWord)
  else if view = 1 then some ((r.revision ++ r.epoch : BitVec (16 + 16)), r.areaWord)
  else none

/-! ### SUB_STATUS (R47, Table 2-5) -/

/-- A line belongs to a subscription, RESERVED or ASSIGNED. -/
def Line.ownedBy (i : SubIdx) : Line → Bool
  | .free => false
  | .reserved o => o == i
  | .assigned o _ _ => o == i

/-- The lines a subscription holds, RESERVED and ASSIGNED together (R48). -/
def State.linesHeld (s : State) (i : SubIdx) : Nat := (s.dpc.lines.toList.filter (Line.ownedBy i)).length

/-- View 0, word 0. -/
def State.subWord (s : State) (i : SubIdx) : Word :=
  (0#3 ++ BitVec.ofBool (s.sub i).welcomed ++ BitVec.ofNat 4 (s.sub i).window ++ BitVec.ofNat 4 ((s.sub i).depth / 8) ++
    BitVec.ofBool (s.sub i).newest ++ ringField (s.sub i).ring ++ (s.sub i).producer ++ BitVec.ofNat 4 (s.linesHeld i) ++
    (s.sub i).reason.code ++ (s.sub i).state.code : BitVec (3 + 1 + 4 + 4 + 1 + 3 + 5 + 4 + 4 + 3))

/-- The two result words of a view, none for a view that does not exist. -/
def State.subView (s : State) (i : SubIdx) (view : Word) : Option (Word × Word) :=
  match view.toNat with
  | 0 => some (s.subWord i, ((s.sub i).incarnation ++ (s.sub i).epoch : BitVec (16 + 16)))
  | 1 => some ((s.sub i).rm, (s.sub i).dp)
  | 2 => some ((s.sub i).pp, (s.sub i).fp)
  | 3 => some ((s.sub i).ap, (s.sub i).kt)
  | 4 => some ((s.sub i).finalTail.getD 0, (s.sub i).undelivered)
  | _ => none

end Sys2Proof.Machine
end

