-- ==== Sys2Proof/Machine/Requests.lean ====
section
/-! DEFINITION. The Request Tracker (chapter 5): claims, grants, the retry line, freeing, cancellation and matching. -/
namespace Sys2Proof.Machine

/-- A request is a FETCH, the probe included. -/
def Request.isFetch : Request → Bool
  | .fetch _ _ _ => true
  | _ => false

/-- A request is a JOIN. -/
def Request.isJoin : Request → Bool
  | .join _ => true
  | _ => false

/-- The tag is bound to a request of subscription `i`. -/
def Tag.boundTo (i : SubIdx) (t : Tag) : Bool :=
  match t.bound with
  | some b => b.sub == i
  | none => false

/-- A tag of subscription `i` is bound (R124). -/
def State.anyBound (s : State) (i : SubIdx) : Bool := s.rqt.tags.toList.any (Tag.boundTo i)

/-- No request of subscription `i` is bound to a tag and none waits for one (R43, R124). -/
def State.nothingOutstanding (s : State) (i : SubIdx) : Bool := !s.anyBound i && (s.sub i).claims.isEmpty

/-- A FETCH of subscription `i` is bound to a tag or waits for one (R40). -/
def State.fetchOutstanding (s : State) (i : SubIdx) : Bool :=
  (s.rqt.tags.toList.any fun t =>
    match t.bound with
    | some b => b.sub == i && b.request.isFetch
    | none => false) ||
  (s.sub i).claims.any Request.isFetch

/-- The first FREE tag after the tag pointer (R112). -/
def State.nextTag (s : State) : Option TagIdx := (after s.rqt.tagPtr).find? fun t => (s.tag t).bound.isNone

/-- The first subscription after the tag-grant pointer with a claim waiting (R112). -/
def State.nextClaimant (s : State) : Option SubIdx :=
  (after s.rqt.tagGrantPtr).find? fun i => !(s.sub i).claims.isEmpty

/-- The request transmit queue has room (R113). -/
def State.requestRoom (s : State) : Bool := decide (s.rqt.queue.length < Config.requestPlaces)

/-- Grant tag `t` to claim `q` of subscription `i` (R112, steps 1 to 4; the claim is the oldest of `i`). -/
def State.grantTo (s : State) (t : TagIdx) (i : SubIdx) (q : Request) : State :=
  let s := s.modSub i fun b => { b with claims := b.claims.drop 1 }
  let s := s.modTag t fun g =>
    { useCount := g.useCount + 1, bound := some { sub := i, request := q, attempts := 1, deadline := none } }
  { s with rqt := { s.rqt with queue := s.rqt.queue ++ [t], tagPtr := t, tagGrantPtr := i } }

/-- One grant, when a FREE tag, room in the queue and an empty retry line meet a waiting claim (R112). -/
def grantOnce (s : State) : Option State :=
  if s.requestRoom && s.rqt.retryLine.isEmpty then
    match s.nextTag, s.nextClaimant with
    | some t, some i =>
      match (s.sub i).claims with
      | [] => none
      | q :: _ => some (s.grantTo t i q)
    | _, _ => none
  else none

/-- One move of the oldest retry to the tail of the request transmit queue, when room is there (R113). -/
def moveRetryOnce (s : State) : Option State :=
  match s.rqt.retryLine with
  | [] => none
  | t :: rest =>
    if s.requestRoom then some { s with rqt := { s.rqt with queue := s.rqt.queue ++ [t], retryLine := rest } } else none

/-- The retries move first, then the claims are granted, while the conditions hold (R112, R113): the queue has 16 places,
so at most 16 of either happen. -/
def runGrants (s : State) : State :=
  repeatWhile grantOnce Config.requestPlaces (repeatWhile moveRetryOnce Config.requestPlaces s)

/-- A unit claims a tag for a request of subscription `i` (R111): granted at once when R112 allows it. -/
def State.claim (s : State) (i : SubIdx) (q : Request) : State :=
  runGrants (s.modSub i fun b => { b with claims := b.claims ++ [q] })

/-- A tag becomes FREE, its use count kept; a QUEUED one leaves the queue or the retry line wherever it stands (R119,
R122). -/
def State.freeTag (s : State) (t : TagIdx) : State :=
  let s := s.modTag t fun g => { g with bound := none }
  { s with rqt := { s.rqt with queue := s.rqt.queue.filter (· ≠ t), retryLine := s.rqt.retryLine.filter (· ≠ t) } }

/-- Cancellation at a forced end (R122): the subscription's tags become FREE, their queued requests are removed, its
waiting claims are withdrawn. -/
def State.cancelRequests (s : State) (i : SubIdx) : State :=
  let mine : TagIdx → Bool := fun t => (s.tag t).boundTo i
  let s' := { s with rqt := { s.rqt with
    tags := mapTable (fun (g : Tag) => if g.boundTo i then { g with bound := none } else g) s.rqt.tags,
    queue := s.rqt.queue.filter (fun t => !mine t),
    retryLine := s.rqt.retryLine.filter (fun t => !mine t) } }
  s'.modSub i fun b => { b with claims := [] }

/-- A reply kind fits a request kind (Table 5-3). -/
def replyFits (k : FrameKind) (q : Request) : Bool :=
  match k, q with
  | .welcome, .join _ => true
  | .listing, .fetch _ _ _ => true
  | .payload, .pull _ _ _ _ => true
  | .refuse, _ => true
  | _, _ => false

/-- The four tests of R118: the binding that an arriving reply answers. -/
def State.matchReply (s : State) (k : FrameKind) (h : Header) : Option Binding :=
  match (s.tag (tagOfField h.tag)).bound with
  | none => none
  | some b =>
    if (b.deadline.isSome || decide (2 ≤ b.attempts)) && h.useCount == (s.tag (tagOfField h.tag)).useCount &&
        h.source == (s.sub b.sub).producer && replyFits k b.request
    then some b else none

/-- Withdraw a subscription's waiting FETCH claims (R121); each is an end of a FETCH, so its count falls with them (R72). -/
def Sub.withdrawFetches (b : Sub) : Sub :=
  { b with claims := b.claims.filter (fun q => !q.isFetch),
           fetchesOut := b.fetchesOut - (b.claims.filter Request.isFetch).length }

/-- Withdraw every waiting claim but a JOIN, at entry to LEAVING from ACTIVE or FINISHING (R121, R123); each is an end of
its FETCH or PULL (R72, R92). -/
def Sub.withdrawClaims (b : Sub) : Sub :=
  { b with claims := b.claims.filter Request.isJoin,
           fetchesOut := b.fetchesOut - (b.claims.filter Request.isFetch).length,
           pullsOut := b.pullsOut - (b.claims.filter (fun q => !q.isFetch && !q.isJoin)).length }

end Sys2Proof.Machine
end

