-- ==== Sys2Proof/Machine/Cache.lean ====
section
/-! DEFINITION. The Descriptor Prefetch Cache (chapter 3): lines and entries, cuts, the known tail, the fetch decision with
line borrowing and the line wait round, flushes and the descriptor interface. -/
namespace Sys2Proof.Machine

/-! ### Lines and entries (R48 to R52) -/

/-- The group start of a sequence: its three low bits cleared (section 3.1). -/
def groupOf (q : Seq) : Seq := q &&& 0xFFFFFFF8

/-- The place of a sequence in its line: its three low bits. -/
def placeOf (q : Seq) : Fin 8 := ⟨q.toNat % 8, Nat.mod_lt _ (by decide)⟩

/-- The sequence of entry `k` of a line for group `g`. -/
def seqOfPlace (g : Seq) (k : Nat) : Seq := g + BitVec.ofNat 32 k

/-- A line of eight EMPTY entries. -/
def emptyEntries : Vector Entry 8 := Vector.replicate 8 Entry.empty

/-- The image an entry holds, in HELD, PULLING and COMPLETE (R48). -/
def Entry.image : Entry → Option Image
  | .held im | .pulling im | .complete im => some im
  | _ => none

/-- The line stands for group `g` of subscription `i`. -/
def Line.isFor (i : SubIdx) (g : Seq) : Line → Bool
  | .assigned o g' _ => o == i && g' == g
  | _ => false

/-- Subscription `i` holds a line for group `g`. -/
def State.holdsGroup (s : State) (i : SubIdx) (g : Seq) : Bool := s.dpc.lines.toList.any (Line.isFor i g)

/-- The entry of a sequence of subscription `i`; EMPTY when no line of it stands for the sequence's group. -/
def State.entryAt (s : State) (i : SubIdx) (q : Seq) : Entry :=
  match s.dpc.lines.toList.find? (Line.isFor i (groupOf q)) with
  | some (.assigned _ _ es) => es.get (placeOf q)
  | _ => .empty

/-- Change every line. -/
def State.mapLines (s : State) (f : Line → Line) : State :=
  { s with dpc := { s.dpc with lines := mapTable f s.dpc.lines } }

/-- Put a line in place. -/
def State.setLine (s : State) (l : LineIdx) (x : Line) : State :=
  { s with dpc := { s.dpc with lines := s.dpc.lines.set l x } }

/-- Set the entry of a sequence of subscription `i`. -/
def State.setEntry (s : State) (i : SubIdx) (q : Seq) (e : Entry) : State :=
  s.mapLines fun l =>
    match l with
    | .assigned o g es => if o == i && g == groupOf q then .assigned o g (es.set (placeOf q) e) else l
    | _ => l

/-- Change the entries of subscription `i` according to their sequences. -/
def State.mapEntries (s : State) (i : SubIdx) (f : Seq → Entry → Entry) : State :=
  s.mapLines fun l =>
    match l with
    | .assigned o g es =>
      if o == i then .assigned o g (Vector.ofFn fun k => f (seqOfPlace g k.val) (es.get k)) else l
    | _ => l

/-- The FREE lines. -/
def State.freeLines (s : State) : Nat := (s.dpc.lines.toList.filter (· == .free)).length

/-- The subscription is in JOINING, ACTIVE, FINISHING or LEAVING. -/
def SubState.live : SubState → Bool
  | .joining | .active | .finishing | .leaving => true
  | _ => false

/-- N of R51. -/
def State.liveSubs (s : State) : Nat := (s.subs.toList.filter fun b => b.state.live).length

/-- The spare lines: FREE − (24 − N) (R51). -/
def State.spareLines (s : State) : Nat := s.freeLines - (24 - s.liveSubs)

/-- The FREE line with the lowest number (R51, R61). -/
def State.lowestFreeLine (s : State) : Option LineIdx := (List.finRange 48).find? fun l => s.dpc.lines.get l == .free

/-- Group `g` meets [DP, AP), or contains DP when AP = DP (R52). -/
def Sub.needsGroup (b : Sub) (g : Seq) : Bool :=
  if b.ap = b.dp then g == groupOf b.dp
  else decide ((g - groupOf b.dp).toNat ≤ (groupOf (b.ap - 1) - groupOf b.dp).toNat)

/-- The line is ASSIGNED to subscription `i` for a group it does not need. -/
def Line.unneeded (i : SubIdx) (b : Sub) : Line → Bool
  | .assigned o g _ => o == i && !b.needsGroup g
  | _ => false

/-- The highest-numbered line that meets a test. -/
def State.lastLine (s : State) (p : Line → Bool) : Option LineIdx :=
  ((List.finRange 48).filter fun l => p (s.dpc.lines.get l)).getLast?

/-- Release the lines a subscription does not need (R52). When that would leave it no line, the last of them is kept and
reassigned to the needed group; the lines are tested in increasing number, so the last is the highest (log 11). -/
def State.trimLines (s : State) (i : SubIdx) : State :=
  let released := s.mapLines fun l => if l.unneeded i (s.sub i) then .free else l
  if released.linesHeld i = 0 then
    match s.lastLine (Line.unneeded i (s.sub i)) with
    | some l => released.setLine l (.assigned i (groupOf (s.sub i).dp) emptyEntries)
    | none => released
  else released

/-- Release every line of a subscription (R54). -/
def State.releaseLines (s : State) (i : SubIdx) : State := s.mapLines fun l => if l.ownedBy i then .free else l

/-- An entry that a cut reaches becomes EMPTY; it never reaches a PULLING or COMPLETE one (R53). -/
def Entry.cut : Entry → Entry
  | .asked | .held _ => .empty
  | e => e

/-- The cut of subscription `i` at `x` (R53). DPC applies a cut only with `x` at or above PP; a lower `x` cuts nothing
(log 12). -/
def State.cutAt (s : State) (i : SubIdx) (x : Seq) : State :=
  if seqUpTo (s.sub i).pp x then
    let s := s.mapEntries i fun q e => if seqUpTo x q then e.cut else e
    let s := s.modSub i fun b => { b with ap := seqMin b.ap x, fp := seqMin b.fp x }
    s.trimLines i
  else s

/-! ### The fence stop (R62) -/

/-- The sequences of [DP, AP) of a subscription whose entry holds an image with FENCE. -/
def State.fences (s : State) (i : SubIdx) : List Seq :=
  s.dpc.lines.toList.flatMap fun l =>
    match l with
    | .assigned o g es =>
      if o == i then
        (List.finRange 8).filterMap fun k =>
          match (es.get k).image with
          | some im => if im.fence && inRange (s.sub i).dp (s.sub i).ap (seqOfPlace g k.val) then some (seqOfPlace g k.val) else none
          | none => none
      else []
    | _ => []

/-- The fence stop: the lowest of them, in modular order from DP (R62). -/
def State.fenceStop (s : State) (i : SubIdx) : Option Seq :=
  (s.fences i).foldl (fun best q =>
    match best with
    | none => some q
    | some f => if (q - (s.sub i).dp).toNat < (f - (s.sub i).dp).toNat then some q else best) none

/-! ### The fetch decision (R58 to R61) -/

/-- How far `b` lies above `a`: their modular distance, 0 when `b` precedes `a`. -/
def seqRoom (a b : Seq) : Nat := if seqUpTo a b then (b - a).toNat else 0

/-- n0 of R59: the least of room, avail (capped by the fence stop) and max fetch; 0 at the fetch limit. -/
def State.sizeLimit (s : State) (i : SubIdx) : Nat :=
  let b := s.sub i
  if b.fetchesOut < s.config.fetchesPerSub then
    let room := seqRoom b.ap (b.dp + BitVec.ofNat 32 b.depth)
    let avail := seqRoom b.ap b.kt
    let avail := match s.fenceStop i with
      | some f => min avail (seqRoom b.ap (f + 1))
      | none => avail
    min (min room avail) s.config.maxFetch
  else 0

/-- The groups that meet [AP, AP + n), in increasing order. -/
def groupsOf (ap : Seq) (n : Nat) : List Seq :=
  if n = 0 then []
  else (List.range ((groupOf (ap + BitVec.ofNat 32 (n - 1)) - groupOf ap).toNat / 8 + 1)).map fun k =>
    groupOf ap + BitVec.ofNat 32 (8 * k)

/-- The new groups of R60: those the subscription does not hold. -/
def State.newGroups (s : State) (i : SubIdx) (n0 : Nat) : List Seq :=
  (groupsOf (s.sub i).ap n0).filter fun g => !s.holdsGroup i g

/-- A subscription's line for its highest group, and that group (R64). -/
def State.highestLine (s : State) (i : SubIdx) : Option (LineIdx × Seq) :=
  (List.finRange 48).foldl (fun best l =>
    match s.dpc.lines.get l with
    | .assigned o g _ =>
      if o == i then
        match best with
        | none => some (l, g)
        | some (_, h) =>
          if (h - groupOf (s.sub i).dp).toNat < (g - groupOf (s.sub i).dp).toNat then some (l, g) else best
      else best
    | _ => best) none

/-- Subscription `v` is a borrow candidate for requester `i`: it holds at least two more lines, and its highest group
starts at or beyond its own PP (R64). Its line and group. -/
def State.borrowFrom (s : State) (i v : SubIdx) : Option (LineIdx × Seq) :=
  if v ≠ i ∧ s.linesHeld i + 2 ≤ s.linesHeld v then
    match s.highestLine v with
    | some (l, g) => if seqUpTo (s.sub v).pp g then some (l, g) else none
    | none => none
  else none

/-- The victim of R64: the candidate holding the most lines, the higher index where two hold the same. -/
def State.victim (s : State) (i : SubIdx) : Option SubIdx :=
  (List.finRange 24).foldl (fun best v =>
    if (s.borrowFrom i v).isSome then
      match best with
      | none => some v
      | some w => if s.linesHeld w ≤ s.linesHeld v then some v else best
    else best) none

/-- What an evaluation finds (R59, R60): n0, the new groups, the spare lines that cover some of them, whether a borrowed
line covers one more, and n. -/
structure Cover where
  limit    : Nat
  groups   : List Seq
  spare    : Nat
  borrowed : Option SubIdx
  size     : Nat
  deriving DecidableEq, Repr

/-- The line cover of R60. -/
def State.cover (s : State) (i : SubIdx) : Cover :=
  let b := s.sub i
  let n0 := s.sizeLimit i
  let groups := s.newGroups i n0
  let spare := min s.spareLines groups.length
  let borrowed := if spare < groups.length ∧ s.linesHeld i < b.depth / 8 + 1 then s.victim i else none
  let obtainable := spare + borrowed.toList.length
  let size := match groups.drop obtainable with
    | [] => n0
    | g :: _ => if g = groupOf b.ap then 0 else min n0 (g - b.ap).toNat
  { limit := n0, groups := groups, spare := spare, borrowed := borrowed, size := size }

/-- A size is enough to issue (R61): at least min fetch, or at least 1 when the subscription is starved. -/
def State.enough (s : State) (i : SubIdx) (n : Nat) : Bool :=
  let b := s.sub i
  decide (1 ≤ n) && (decide (s.config.minFetch ≤ n) || (b.pp == b.fp && b.fp == b.ap))

/-- Take a spare line, the lowest-numbered FREE one, for a group (R61). -/
def State.takeSpare (i : SubIdx) (s : State) (g : Seq) : State :=
  match s.lowestFreeLine with
  | some l => s.setLine l (.assigned i g emptyEntries)
  | none => s

/-- Take the victim's highest line for a group of subscription `i` (R65): the line changes hands without passing through
FREE, and the victim is cut at the line's group. -/
def State.borrow (s : State) (i v : SubIdx) (g : Seq) : State :=
  match s.highestLine v with
  | some (l, h) => (s.setLine l (.assigned i g emptyEntries)).cutAt v h
  | none => s

/-- Issue a FETCH by a cover (R61). -/
def State.issueFetch (s : State) (i : SubIdx) (c : Cover) : State :=
  let ap := (s.sub i).ap
  let s := (c.groups.take c.spare).foldl (State.takeSpare i) s
  let s := match c.borrowed, c.groups.drop c.spare with
    | some v, g :: _ => s.borrow i v g
    | _, _ => s
  let s := s.mapEntries i fun q e => if inRange ap (ap + BitVec.ofNat 32 c.size) q then .asked else e
  let s := s.modSub i fun b => { b with ap := ap + BitVec.ofNat 32 c.size, fetchesOut := b.fetchesOut + 1 }
  s.claim i (.fetch ap c.size (s.sub i).generation)

/-- The fetch decision is made for a subscription that is ACTIVE or FINISHING and not flush pending (R58). -/
def Sub.evaluated (b : Sub) : Bool := (b.state == .active || b.state == .finishing) && !b.flushPending

/-- The outcome of one evaluation: the state; the cover by which a FETCH was issued, if one was. -/
structure Evaluation where
  state  : State
  issued : Option Cover

/-- One evaluation of the fetch decision (R58 to R61, R66): it issues a FETCH, or sets line wait, or does nothing. Line wait
is cleared at every evaluation, and where the decision is not made (R58). -/
def State.evaluateOnce (s : State) (i : SubIdx) : Evaluation :=
  let s := s.modSub i fun b => { b with lineWait := false }
  if (s.sub i).evaluated then
    let c := s.cover i
    if s.enough i c.size then { state := s.issueFetch i c, issued := some c }
    else if s.enough i c.limit && c.spare == 0 && c.borrowed.isNone then
      { state := s.modSub i fun b => { b with lineWait := true }, issued := none }
    else { state := s, issued := none }
  else { state := s, issued := none }

/-- A cover that takes a line. -/
def Cover.takesLine (c : Cover) : Bool := decide (0 < c.spare) || c.borrowed.isSome

/-- Evaluations run on until one issues nothing (R58). A borrow lowers the victim's AP, which is a trigger of the victim's
own evaluation (R65): it follows the requester's own (log 10). At most 48 FETCHes can be outstanding, so 200 evaluations
are never reached from a state in which the limits hold. -/
def evaluations : Nat → List SubIdx → State → State
  | 0, _, s => s
  | _ + 1, [], s => s
  | fuel + 1, i :: rest, s =>
    match s.evaluateOnce i with
    | { state := s', issued := none } => evaluations fuel rest s'
    | { state := s', issued := some c } => evaluations fuel (i :: (rest ++ c.borrowed.toList)) s'

/-- Evaluate the fetch decision of subscriptions, one after the other. -/
def State.evaluate (s : State) (is : List SubIdx) : State := evaluations 200 is s

/-- One subscription's turn in the line wait round (R66): evaluated when it still waits and a spare line remains; the
line-grant pointer moves to it when its evaluation takes a line. -/
def lineWaitTurn (s : State) (i : SubIdx) : State :=
  if (s.sub i).lineWait && decide (0 < s.spareLines) then
    match s.evaluateOnce i with
    | { state := s', issued := none } => s'
    | { state := s', issued := some c } =>
      let s' := if c.takesLine then { s' with dpc := { s'.dpc with lineGrantPtr := i } } else s'
      evaluations 200 (i :: c.borrowed.toList) s'
  else s

/-- The line wait round (R66): the subscriptions that wait when it begins, in round-robin order after the line-grant
pointer, each once. -/
def lineWaitRound (s : State) : State :=
  ((after s.dpc.lineGrantPtr).filter fun i => (s.sub i).lineWait).foldl lineWaitTurn s

/-! ### The known tail (R55, R57) -/

/-- Tail information for a subscription in ACTIVE or LEAVING (R55). -/
def State.applyTail (s : State) (i : SubIdx) (t : Seq) (r : Half) : State :=
  let b := s.sub i
  if b.state = .active ∨ (b.state = .leaving ∧ b.welcomed = true) then
    if r = b.revision then s.modSub i fun b => { b with kt := seqMax b.kt t }
    else if newer r b.revision then
      let s := s.modSub i fun b => { b with kt := t, revision := r }
      if seqBefore t b.ap then s.cutAt i t else s
    else s
  else s

/-- Entry to FINISHING from ACTIVE (R39, R57): the final tail is fixed, a newer revision is adopted, what was asked beyond
the final tail is cut, the poll timer stops, and SUB_FINISHING is posted. -/
def State.enterFinishing (s : State) (i : SubIdx) (t : Seq) (r : Half) : State :=
  let s := s.modSub i fun b =>
    { b with state := .finishing, finalTail := some t, kt := t, poll := none,
             revision := if r ≠ b.revision ∧ newer r b.revision then r else b.revision }
  let s := if seqBefore t (s.sub i).ap then s.cutAt i t else s
  s.postSub .subFinishing i 0 t

/-! ### Flushes (R78 to R81) -/

/-- The flush-all set is empty (R80). -/
def State.flushAllEmpty (s : State) : Bool := s.subs.toList.all fun b => !b.inFlushAll

/-- Post the flush-all notice: value the added count, reason the ended mark; both are then cleared (R80). -/
def State.postFlushAll (s : State) : State :=
  let s := s.post { kind := .flushDone, index := 255, reason := if s.dpc.flushEnded then 1 else 0,
                    value := BitVec.ofNat 32 s.dpc.flushAdded.length }
  { s with dpc := { s.dpc with flushAdded := [], flushEnded := false } }

/-- Take a subscription out of the flush-all set; the notice is posted when that empties the set (R79 to R81). -/
def State.leaveFlushAll (s : State) (i : SubIdx) : State :=
  if (s.sub i).inFlushAll then
    let s := s.modSub i fun b => { b with inFlushAll := false }
    if s.flushAllEmpty then s.postFlushAll else s
  else s

/-- Post the FLUSH_DONE owed for a subscription alone, if one is (R79, R81). -/
def State.payFlushNotice (s : State) (i : SubIdx) (reason : Byte) : State :=
  if (s.sub i).flushOwed then
    (s.modSub i fun b => { b with flushOwed := false }).postSub .flushDone i reason ((s.sub i).generation.setWidth 32)
  else s

/-- The completion test of a flush (R79); the fetch decision it may lead to is the caller's next step. -/
def State.flushTest (s : State) (i : SubIdx) : State :=
  if (s.sub i).flushPending && (s.sub i).fetchesOut == 0 then
    ((s.modSub i fun b => { b with flushPending := false }).payFlushNotice i 0).leaveFlushAll i
  else s

/-- R78 for one subscription. `alone` is a FLUSH naming it: only that sets its flush notice owed (R80). -/
def State.flushSub (s : State) (i : SubIdx) (alone : Bool) : State :=
  let s := s.modSub i fun b => { b.withdrawFetches with generation := b.generation + 1 }
  let s := s.cutAt i (s.sub i).pp
  s.modSub i fun b => { b with flushPending := true, lineWait := false, flushOwed := b.flushOwed || alone }

/-- The flush-all set's ended mark is set (R81). -/
def State.markFlushEnded (s : State) : State := { s with dpc := { s.dpc with flushEnded := true } }

/-- What a forced end does to a flush of the subscription that was pending (R81). -/
def State.settleFlush (s : State) (i : SubIdx) (wasPending : Bool) : State :=
  if wasPending then
    let s := s.payFlushNotice i 1
    if (s.sub i).inFlushAll then s.markFlushEnded.leaveFlushAll i
    else s
  else s

/-! ### Accepting a LISTING (R68 to R70) -/

/-- Take one descriptor image (R68): accepted when its sequence was asked by the FETCH, lies in [FP, AP), and is ASKED. -/
def acceptImage (i : SubIdx) (first : Seq) (count : Nat) (s : State) (im : Image) : State :=
  if inRange first (first + BitVec.ofNat 32 count) im.seq && inRange (s.sub i).fp (s.sub i).ap im.seq &&
      s.entryAt i im.seq == .asked
  then s.setEntry i im.seq (.held im) else s

/-- The first sequence at or after `q`, below AP, whose entry is not HELD. A subscription has at most 384 entries. -/
def State.heldRun (s : State) (i : SubIdx) : Nat → Seq → Seq
  | 0, q => q
  | fuel + 1, q =>
    if q = (s.sub i).ap then q
    else
      match s.entryAt i q with
      | .held _ => State.heldRun s i fuel (q + 1)
      | _ => q

/-- FP advances over the run of HELD entries, and the arrival signal clears pull wait when FP rises above PP (R70, R74). -/
def State.advanceFill (s : State) (i : SubIdx) : State :=
  let fp := s.heldRun i 384 (s.sub i).fp
  s.modSub i fun b => { b with fp := fp, pullWait := b.pullWait && fp == b.pp }

/-! ### The descriptor interface (R73, R75) -/

/-- DPC's answers to a descriptor request (R73). -/
inductive Answer where
  | hit (im : Image)
  | defer
  | caughtUp
  deriving DecidableEq, Repr

/-- DPC's answer for the descriptor at PP (R73). -/
def State.descriptorAnswer (s : State) (i : SubIdx) : Answer :=
  let b := s.sub i
  if b.state = .active ∨ b.state = .finishing then
    match s.entryAt i b.pp with
    | .held im => if seqBefore b.pp b.fp then .hit im else if seqBefore b.fp b.kt then .defer else .caughtUp
    | _ => if seqBefore b.fp b.kt then .defer else .caughtUp
  else .caughtUp

/-- The answer sets pull wait on DEFER, and on CAUGHT_UP in ACTIVE (R73). -/
def State.noteAnswer (s : State) (i : SubIdx) : State :=
  match s.descriptorAnswer i with
  | .hit _ => s
  | .defer => s.modSub i fun b => { b with pullWait := true }
  | .caughtUp => if (s.sub i).state = .active then s.modSub i fun b => { b with pullWait := true } else s

end Sys2Proof.Machine
end

