-- ==== Sys2Proof/Machine/Subscriptions.lean ====
section
/-! DEFINITION. The Subscription Manager's ends (section 2.6, 2.7) with the part each unit takes in them, and the Pull and
Delivery Unit's shared operations (chapter 4): blocks, pull starts, the block grant round and deliveries. -/
namespace Sys2Proof.Machine

/-! ### Blocks (R85, R86) -/

/-- The number of FREE blocks. -/
def State.freeBlocks (s : State) : Nat := (s.pdu.blocks.filter (· == .free)).length

/-- Change every entry of the Block Table. -/
def State.mapBlocks (s : State) (f : Block → Block) : State := { s with pdu := { s.pdu with blocks := s.pdu.blocks.map f } }

/-- Allocate the `need` lowest FREE blocks to (i, q), FILLING, from index `index` on (R86). Walks the table from block
`number`; the second component lists the blocks taken, in index order. -/
def takeBlocks (i : SubIdx) (q : Seq) : Nat → Nat → Nat → List Block → List Block × List Nat
  | _, _, _, [] => ([], [])
  | 0, _, _, bs => (bs, [])
  | need + 1, index, number, .free :: bs =>
    let r := takeBlocks i q need (index + 1) (number + 1) bs
    (.filling i q index :: r.1, number :: r.2)
  | need + 1, index, number, b :: bs =>
    let r := takeBlocks i q (need + 1) index (number + 1) bs
    (b :: r.1, r.2)

/-- The state after an allocation. -/
def State.allocate (s : State) (i : SubIdx) (q : Seq) (need : Nat) : State :=
  { s with pdu := { s.pdu with blocks := (takeBlocks i q need 0 0 s.pdu.blocks).1 } }

/-- The blocks that an allocation takes. -/
def State.allocated (s : State) (i : SubIdx) (q : Seq) (need : Nat) : List Nat := (takeBlocks i q need 0 0 s.pdu.blocks).2

/-- A FILLING block of subscription `i` whose sequence meets `p` returns to FREE. -/
def Block.discard (i : SubIdx) (p : Seq → Bool) : Block → Block
  | .filling o q k => if o == i && p q then .free else .filling o q k
  | b => b

/-- The blocks of (i, q) become DELIVERED (R96). -/
def Block.deliver (i : SubIdx) (q : Seq) : Block → Block
  | .filling o r k => if o == i && r == q then .delivered o r k else .filling o r k
  | b => b

/-- The DELIVERED blocks of (i, q) return to FREE (R101). -/
def Block.retire (i : SubIdx) (q : Seq) : Block → Block
  | .delivered o r k => if o == i && r == q then .free else .delivered o r k
  | b => b

/-- The FILLING blocks of subscription `i` whose sequences meet `p` return to FREE (R86). -/
def State.discardBlocks (s : State) (i : SubIdx) (p : Seq → Bool) : State := s.mapBlocks (Block.discard i p)

/-! ### The block grant round (R90) and pull starts (R75, R89) -/

/-- PDU's record of a descriptor of subscription `i`. -/
def Sub.pullRecord (b : Sub) (q : Seq) : Option PullRecord := b.pulls.find? fun p => p.image.seq == q

/-- The start of the pull of the HELD descriptor at PP, with its blocks (R75, R89): PULLING, or COMPLETE at once when its
length is 0; PP rises by one; a descriptor with chunks becomes the issue position. -/
def State.startPull (s : State) (i : SubIdx) (im : Image) (blocks : List Nat) : State :=
  let s := s.setEntry i im.seq (if im.length = 0 then .complete im else .pulling im)
  s.modSub i fun b =>
    { b with pp := b.pp + 1,
             pulls := b.pulls ++ [{ image := im, blocks := blocks, issued := 0, arrived := [] }],
             issue := if im.length = 0 then b.issue else some (im.seq, 0) }

/-- The blocks of a start after a grant of `got`: the granted ones, and a free value for each further block that the image
now held would need (log 5). -/
def State.padBlocks (s : State) (got : List Nat) (im : Image) : List Nat :=
  got ++ (List.range (chunkCount im.length.toNat - got.length)).map fun k =>
    Config.unstatedBlock (s.freeIndex + k) % s.pdu.blocks.length

/-- The blocks of a waiting subscription are allocated: its wait ends, and the block-grant pointer moves to it (R90). -/
def State.grantBlocks (s : State) (i : SubIdx) (q : Seq) (need : Nat) : State :=
  let s := (s.allocate i q need).modSub i fun b => { b with blockWait := none }
  { s with pdu := { s.pdu with blockGrantPtr := i } }

/-- The start of a waiting sequence whose entry is HELD, with the blocks just granted. -/
def State.startGranted (s : State) (i : SubIdx) (im : Image) (got : List Nat) : State :=
  { s.startPull i im (s.padBlocks got im) with
    freeIndex := s.freeIndex + (chunkCount im.length.toNat - got.length) }

/-- The waiting start is presented to DPC (R75): taken when the entry at PP is HELD and holds the sequence; else the blocks
return and DPC's fresh answer is taken. -/
def State.presentStart (s : State) (i : SubIdx) (q : Seq) (got : List Nat) : State :=
  match s.entryAt i q, decide (q = (s.sub i).pp) with
  | .held im, true => s.startGranted i im got
  | _, _ => (s.discardBlocks i (· == q)).noteAnswer i

/-- One subscription's turn in the block grant round (R90). -/
def blockGrantTurn (s : State) (i : SubIdx) : State :=
  match (s.sub i).blockWait with
  | none => s
  | some (q, need) =>
    if need ≤ s.freeBlocks then (s.grantBlocks i q need).presentStart i q (s.allocated i q need) else s

/-- The block grant round (R90): every waiting subscription once, in round-robin order after the block-grant pointer. -/
def blockGrantRound (s : State) : State := (after s.pdu.blockGrantPtr).foldl blockGrantTurn s

/-! ### Frames of a subscription -/

/-- The LEAVE frame of a subscription (R162, Table 10-3): epoch 0 when it was never welcomed. -/
def State.leaveFrameOf (s : State) (i : SubIdx) : Frame :=
  let b := s.sub i
  headerFrame .leave { s.header with dest := b.producer, ring := ringField b.ring,
                                     epoch := if b.welcomed then b.epoch else 0 }

/-! ### Ends (R38, R40, R43) -/

/-- The parts of every entry to ENDED: reason and undelivered count, PP, FP and AP at DP, no request, no pull, no wait, no
timer, no pending flag (R26, R38, R54, R107). -/
def Sub.ended (b : Sub) (reason : EndReason) (undelivered : Word) : Sub :=
  { b with state := .ended, reason := reason, undelivered := undelivered, pp := b.dp, fp := b.dp, ap := b.dp,
           poll := none, fetchesOut := 0, flushPending := false, lineWait := false, pullWait := false, pullsOut := 0,
           issue := none, blockWait := none, keepalive := none, releasePending := false, pulls := [] }

/-- KT − DP when welcomed, 0 otherwise (R38, R43). -/
def Sub.undeliveredCount (b : Sub) : Word := if b.welcomed then b.kt - b.dp else 0

/-- The forced end of R38 as one change, and what it does to a pending flush (R81). -/
def State.forcedEnd (s : State) (i : SubIdx) (reason : EndReason) : State :=
  let wasPending := (s.sub i).flushPending
  let count := (s.sub i).undeliveredCount
  let s := s.cancelRequests i
  let s := s.discardBlocks i fun _ => true
  let s := s.releaseLines i
  let s := s.modSub i fun b => b.ended reason count
  let s := s.postSub .subEnded i reason.byte count
  s.settleFlush i wasPending

/-- The completion of FINISHING (R40). All its tags are freed at the latest here (R110), and R107 leaves nothing to discard;
what a peer that breaks the protocol left behind is cancelled and discarded, which is the model's choice (log 12). -/
def State.completeFinishing (s : State) (i : SubIdx) : State :=
  let s := s.cancelRequests i
  let s := s.discardBlocks i fun _ => true
  let s := s.placeOneOff (s.leaveFrameOf i)
  let s := s.releaseLines i
  let s := s.modSub i fun b => b.ended .closed 0
  s.postSub .subEnded i EndReason.closed.byte 0

/-- The completion of a leave (R43, steps 1 to 5). -/
def State.completeLeave (s : State) (i : SubIdx) : State :=
  let count := (s.sub i).undeliveredCount
  let s := s.discardBlocks i fun _ => true
  let s := s.placeOneOff (s.leaveFrameOf i)
  let s := s.releaseLines i
  let s := s.modSub i fun b => b.ended .left count
  s.postSub .subEnded i EndReason.left.byte count

/-- What freed tags, blocks and lines lead to but for deliveries: retries and grants (R112, R113, R122), the block grant round
(R86, R90) and the line wait round (R66). -/
def handOn (s : State) : State := lineWaitRound (blockGrantRound (runGrants s))

/-- The completion test of R40. What the completion frees is handed on: its lines, and the tags and blocks that only a peer
that breaks the protocol can have left to it. That those are freed and handed on there is the model's choice (log 12). -/
def State.finishingTest (s : State) (i : SubIdx) : State :=
  if (s.sub i).state == .finishing && (s.sub i).finalTail == some (s.sub i).dp && !s.fetchOutstanding i
  then handOn (s.completeFinishing i) else s

/-! ### Delivery (R96) -/

/-- The subscription is deliverable (R96). -/
def State.deliverable (s : State) (i : SubIdx) : Bool :=
  let b := s.sub i
  (b.state == .active || b.state == .finishing || b.state == .leaving) &&
  (match s.entryAt i b.dp with
    | .complete _ => true
    | _ => false) &&
  decide ((b.dp - b.rm).toNat < Config.unretiredLimit)

/-- The subscription that the next delivery is for, when the Delivery Queue has room (R96). -/
def State.nextDelivery (s : State) : Option SubIdx :=
  if s.pdu.fill < s.pdu.capacity then (after s.pdu.deliveryPtr).find? fun i => s.deliverable i else none

/-- The offset of a slot of the Delivery Queue (R98). -/
def State.queueSlot (s : State) (j : Nat) : Addr := addr (s.config.queueBase + 48 * j)

/-- Step 1 of a delivery: the record of the descriptor at DP is written at the write index (R96, R97). -/
def State.writeRecord (s : State) (i : SubIdx) : State :=
  match (s.sub i).pullRecord (s.sub i).dp with
  | some p => s.putBytes (s.queueSlot s.pdu.writeIndex) (deliveryRecord i (s.sub i) p)
  | none => s

/-- The delivery pointer moves to the subscription, the write index advances and the fill rises (R96, step 3; R98). -/
def State.countRecord (s : State) (i : SubIdx) : State :=
  { s with pdu := { s.pdu with deliveryPtr := i, writeIndex := (s.pdu.writeIndex + 1) % s.pdu.capacity,
                               fill := s.pdu.fill + 1 } }

/-- DP rises by one, and the descriptor's pull record goes (R96, step 4). -/
def Sub.delivered (b : Sub) : Sub := { b with dp := b.dp + 1, pulls := b.pulls.filter fun p => p.image.seq != b.dp }

/-- The four steps of a delivery for subscription `i` (R96), and the entry's leaving the cache (R76). -/
def State.deliverFor (s : State) (i : SubIdx) : State :=
  let q := (s.sub i).dp
  ((((((s.writeRecord i).mapBlocks (Block.deliver i q)).countRecord i).setEntry i q .empty).modSub i
    Sub.delivered).trimLines i)

/-- One delivery with what follows in the same event: the line wait round for the lines it frees, the fetch decision of its
subscription (R66, R76), and in FINISHING the completion test (R40). -/
def deliverOnce (s : State) : Option State :=
  match s.nextDelivery with
  | none => none
  | some i => some (((lineWaitRound (s.deliverFor i)).evaluate [i]).finishingTest i)

/-- Deliveries go on while the queue has room and a subscription is deliverable (R96); the queue has at most 512 places. -/
def deliverAll (s : State) : State := repeatWhile deliverOnce 512 s

/-! ### What follows an event (log 9) -/

/-- What freed tags, blocks and lines lead to within the event that frees them: they are handed on, and then come the
deliveries (R96). -/
def settle (s : State) : State := deliverAll (handOn s)

/-- The completion test of a leave (R43, R124), made after the deliveries that the event led to. -/
def State.leaveTest (s : State) (i : SubIdx) : State :=
  if (s.sub i).state == .leaving && s.nothingOutstanding i then settle (s.completeLeave i) else s

/-- A forced end with what follows it. -/
def State.endNow (s : State) (i : SubIdx) (reason : EndReason) : State := settle (s.forcedEnd i reason)

/-- The abandonment of a PULL of sequence `q` in LEAVING (R42, R106): its descriptor and every later one are discarded. -/
def State.abandonPull (s : State) (i : SubIdx) (q : Seq) : State :=
  if inRange (s.sub i).dp (s.sub i).pp q then
    let later : Seq → Bool := fun r => inRange q (s.sub i).pp r
    let s := s.discardBlocks i later
    let s := s.mapEntries i fun r e => if later r then .empty else e
    let s := s.modSub i fun b =>
      { b with pp := q, fp := q, ap := q, pulls := b.pulls.filter fun p => !later p.image.seq }
    s.trimLines i
  else s

end Sys2Proof.Machine
end

