-- ==== Sys2Proof/Machine/Roster.lean ====
section
/-! DEFINITION. The Publication Unit's shared operations (chapters 1 and 6): the validation of an ADVANCE, the commit and
reclaim points, the close of a ring, and the roster. -/
namespace Sys2Proof.Machine

/-! ### The validation of an ADVANCE (R10) -/

/-- Validation reads one more word of its current slot, and judges the slot when its four words are read; it stops at the
first slot that fails, and after the last slot. -/
def State.judgeWord (s : State) (run : AdvanceRun) : AdvanceRun :=
  if run.bad.isSome || decide (run.length ≤ run.judged) then run
  else
    let at0 := (s.ring run.ring).slotAddr (run.start + BitVec.ofNat 32 run.judged)
    match run.part ++ [s.wordAt (at0 + addr (4 * run.part.length))] with
    | [w0, w1, w2, _] =>
      match s.slotCheck (slotOfWords w0 w1 w2) with
      | none => { run with judged := run.judged + 1, part := [] }
      | some c => { run with part := [], bad := some (run.judged, c) }
    | part => { run with part := part }

/-- Validation reads `n` more words, or as many as there are left. -/
def State.judgeWords (s : State) : Nat → AdvanceRun → AdvanceRun
  | 0, run => run
  | n + 1, run => s.judgeWords n (s.judgeWord run)

/-- Validation reads on, by an amount the manual leaves open (log 3), before an event that reaches what it reads: a local
write to station memory, or the close of a ring. -/
def progressValidation (s : State) : State :=
  match s.lpc.slot with
  | .advancing run =>
    { s with lpc := { s.lpc with slot := .advancing (s.judgeWords (Config.validationProgress s.freeIndex) run) },
             freeIndex := s.freeIndex + 1 }
  | _ => s

/-! ### The points of a ring (R18, R19) -/

/-- The commit point is raised to a value that lies above it (R18). -/
def Ring.raiseCommit (r : Ring) (q : Seq) : Ring := { r with commit := if seqBefore r.commit q then q else r.commit }

/-- The recomputed reclaim point (R19): the lowest release mark, measured from the reclaim point. -/
def Ring.reclaimValue (r : Ring) : Seq :=
  match r.roster with
  | [] => if r.retain then r.reclaim else r.tail
  | m :: ms => ms.foldl (fun low n => if (n.mark - r.reclaim).toNat < (low - r.reclaim).toNat then n.mark else low) m.mark

/-- The recomputation of the reclaim point; the commit point follows a reclaim point above it (R18, R19). -/
def Ring.recompute (r : Ring) : Ring := ({ r with reclaim := r.reclaimValue } : Ring).raiseCommit r.reclaimValue

/-! ### The close of a ring (R3, R141) -/

/-- The change of the ring record at its close (R3). -/
def Ring.close (r : Ring) : Ring := { r with state := .closed, announcePending := false, roster := [], drain := none }

/-- The close with its notice: the members dropped are counted before the roster is emptied (R141). -/
def State.closeRing (s : State) (r : RingIdx) (reason : Byte) : State :=
  let dropped := (s.ring r).roster.length
  ((progressValidation s).modRing r Ring.close).postRing .ringClosed r reason (BitVec.ofNat 32 dropped)

/-! ### The roster (R125 to R127) -/

/-- The entry of a station. -/
def Ring.member (r : Ring) (h : Station) : Option Member := r.roster.find? fun m => m.station == h

/-- Change the entry of a station. -/
def Ring.modMember (r : Ring) (h : Station) (f : Member → Member) : Ring :=
  { r with roster := r.roster.map fun m => if m.station == h then f m else m }

/-- Put an entry in its place: the roster is kept by station number (R125). -/
def insertMember (n : Member) : List Member → List Member
  | [] => [n]
  | m :: ms => if n.station.toNat < m.station.toNat then n :: m :: ms else m :: insertMember n ms

/-- The entry of a station leaves the roster, and the points are recomputed (R126, steps 1 and 2). -/
def Ring.dropMember (r : Ring) (h : Station) : Ring :=
  ({ r with roster := r.roster.filter fun m => m.station != h } : Ring).recompute

/-- A removal (R126). -/
def State.removeMember (s : State) (r : RingIdx) (h : Station) (k : NoticeKind) (reason : Byte) : State :=
  let s := s.modRing r fun g => g.dropMember h
  let s := s.postRing k r reason (h.setWidth 32)
  if (s.ring r).state == .withdrawing && (s.ring r).roster.isEmpty then s.closeRing r 0 else s

/-- The comparison by station and incarnation (R127): the state after it, and whether the frame is from a member. -/
def State.compareRoster (s : State) (r : RingIdx) (h : Station) (incarnation : Half) : State × Bool :=
  match (s.ring r).member h with
  | none => (s, false)
  | some m =>
    if m.incarnation = incarnation then (s, true)
    else (s.removeMember r h .memberEvicted EndReason.restarted.byte, false)

/-- The silence timer of a station's entry is started or restarted (R135). -/
def State.restartSilence (s : State) (r : RingIdx) (h : Station) : State :=
  s.modRing r fun g => g.modMember h fun m => { m with silence := some s.config.silenceLimit }

/-- An EVICT of the ring for a station (R133, R136). -/
def State.evictFrame (s : State) (r : RingIdx) (h : Station) : Frame :=
  headerFrame .evict { s.header with dest := h, ring := ringField r, epoch := (s.ring r).epoch }

end Sys2Proof.Machine
end

