-- ==== Sys2Proof/Machine/RingCommands.lean ====
section
/-! DEFINITION. The ring commands as the Publication Unit takes them (chapter 1 and section 6.7): OPEN, ADVANCE and its
completion, RETRACT, WITHDRAW and RING_STATUS. -/
namespace Sys2Proof.Machine

/-- A refusal: the result registers are written and nothing else changes (R182). -/
def State.refuse (s : State) (c : ResultCode) : State := s.finish c 0 0

/-! ### OPEN (R7, R8) -/

/-- Checks 3 to 5 of R7, in order. -/
def State.openCheck (s : State) (base count retain : Word) : Option ResultCode :=
  if !([16, 32, 64, 128, 256, 512].contains count.toNat) || decide (1 < retain.toNat) then some .badArg
  else if decide (base.toNat % 16 ≠ 0) || !insideMemory base.toNat (16 * count.toNat) then some .badArg
  else if overlapsAny base.toNat (16 * count.toNat) (fixedRegions s.config ++ s.publishedAreas) then some .overlap
  else none

/-- The ring record that OPEN leaves (R8). -/
def Ring.opening (r : Ring) (base count retain : Word) : Ring :=
  { state := .opened, epoch := r.epoch + 1, revision := 0, slotBase := base.setWidth 18, slotCount := count.setWidth 10,
    retain := retain == 1, tail := 0, commit := 0, reclaim := 0, announcePending := true, roster := [], drain := none }

/-- OPEN (R7, R8). -/
def takeOpen (ring base count retain : Word) (s : State) : State :=
  match ringOfWord ring with
  | none => s.refuse .badArg
  | some r =>
    if (s.ring r).state ≠ .closed then s.refuse .state
    else
      match s.openCheck base count retain with
      | some c => s.refuse c
      | none => (s.modRing r fun g => g.opening base count retain).finish .ok (((s.ring r).epoch + 1).setWidth 32) 0

/-! ### ADVANCE (R9 to R12) -/

/-- The published distance tail − reclaim point. -/
def Ring.held (r : Ring) : Nat := (r.tail - r.reclaim).toNat

/-- ADVANCE is taken: its checks, or the start of validation (R9). -/
def takeAdvance (ring n : Word) (s : State) : State :=
  match ringOfWord ring with
  | none => s.refuse .badArg
  | some r =>
    let g := s.ring r
    if g.state ≠ .opened then s.refuse .state
    else if n.toNat < 1 ∨ g.slotCount.toNat < n.toNat then s.refuse .badArg
    else if g.slotCount.toNat < g.held + n.toNat then
      s.finish .ringFull (BitVec.ofNat 32 (g.slotCount.toNat - g.held)) 0
    else
      { s with lpc := { s.lpc with slot := .advancing { ring := r, start := g.tail, length := n.toNat, judged := 0,
                                                        part := [], bad := none } } }

/-- The sequence field of the slot of sequence `q` is written (R12). -/
def State.writeSequence (r : Ring) (s : State) (q : Seq) : State := s.putBytes (r.slotAddr q + 12) (wordBytes q)

/-- The sequences of a batch, in order. -/
def AdvanceRun.sequences (run : AdvanceRun) : List Seq := (List.range run.length).map fun i => run.start + BitVec.ofNat 32 i

/-- The ring record that a successful ADVANCE leaves (R12, R19). -/
def Ring.advanced (r : Ring) (n : Nat) : Ring :=
  ({ r with tail := r.tail + BitVec.ofNat 32 n, announcePending := true } : Ring).recompute

/-- The completion of an ADVANCE: validation is finished, and its verdict applied (R11, R12). -/
def completeAdvance (s : State) : State :=
  match s.lpc.slot with
  | .advancing run =>
    match (s.judgeWords (4 * run.length) run).bad with
    | some (index, code) => s.finish .badDescriptor (BitVec.ofNat 32 index) (BitVec.ofNat 32 code)
    | none =>
      let s := run.sequences.foldl (State.writeSequence (s.ring run.ring)) s
      let s := s.modRing run.ring fun g => g.advanced run.length
      s.finish .ok (s.ring run.ring).tail 0
  | _ => s

/-! ### RETRACT (R14, R15) -/

/-- RETRACT. -/
def takeRetract (ring t : Word) (s : State) : State :=
  match ringOfWord ring with
  | none => s.refuse .badArg
  | some r =>
    let g := s.ring r
    if g.state ≠ .opened then s.refuse .state
    else if !seqUpTo t g.tail then s.refuse .badArg
    else if seqBefore t g.commit then s.finish .belowCommit g.commit 0
    else if t = g.tail then s.finish .ok g.tail (g.revision.setWidth 32)
    else
      (s.modRing r fun g => { g with tail := t, revision := g.revision + 1, announcePending := true }).finish .ok t
        ((g.revision + 1).setWidth 32)

/-! ### WITHDRAW (R138, R139) -/

/-- WITHDRAW. -/
def takeWithdraw (ring drain : Word) (s : State) : State :=
  match ringOfWord ring with
  | none => s.refuse .badArg
  | some r =>
    if 65535 < drain.toNat then s.refuse .badArg
    else if (s.ring r).state ≠ .opened then s.refuse .state
    else
      let g := s.ring r
      let s := s.modRing r fun g => { g with state := .withdrawing, announcePending := true }
      let s := s.finish .ok g.tail (BitVec.ofNat 32 g.roster.length)
      if g.roster.isEmpty || drain == 0 then s.closeRing r 2
      else s.modRing r fun g => { g with drain := some drain.toNat }

/-! ### RING_STATUS (R22) -/

/-- RING_STATUS. -/
def takeRingStatus (ring view : Word) (s : State) : State :=
  match ringOfWord ring with
  | none => s.refuse .badArg
  | some r =>
    match (s.ring r).view view with
    | some (w0, w1) => s.finish .ok w0 w1
    | none => s.refuse .badArg

end Sys2Proof.Machine
end

