-- ==== Sys2Proof/Machine/SubCommands.lean ====
section
/-! DEFINITION. The subscription commands as SBM, DPC and PDU take them: JOIN, LEAVE, FLUSH, FLUSH ALL, DISMISS, SUB_STATUS
(chapters 2 and 3), ACCEPT and RETIRE (chapter 4). -/
namespace Sys2Proof.Machine

/-- The FREE record with the lowest index (R28). -/
def State.lowestFreeSub (s : State) : Option SubIdx := (List.finRange 24).find? fun i => (s.sub i).state == .free

/-- A record that is not FREE and names this producer and ring (R27, R31, R167). -/
def State.findSub (s : State) (p : Station) (r : RingIdx) : Option SubIdx :=
  (List.finRange 24).find? fun i => (s.sub i).state != .free && (s.sub i).producer == p && (s.sub i).ring == r

/-! ### JOIN (R27, R28) -/

/-- The depth of word 3. -/
def joinDepth (w3 : Word) : Nat := (w3.extractLsb' 0 8).toNat

/-- The pull window of word 3. -/
def joinWindow (w3 : Word) : Nat := (w3.extractLsb' 8 8).toNat

/-- Check 1 of R27. -/
def joinArgsOk (w0 w1 w2 w3 : Word) : Bool :=
  decide (w0.toNat < 32) && decide (w1.toNat < 8) && decide (w2.toNat ≤ 1) && within (joinDepth w3) 8 64 &&
  decide (joinDepth w3 % 8 = 0) && within (joinWindow w3) 1 8 && w3.extractLsb' 16 16 == 0

/-- The record that JOIN leaves in JOINING; the flush generation is kept (R28). -/
def Sub.joining (b : Sub) (p : Station) (r : RingIdx) (newest : Bool) (depth window : Nat) : Sub :=
  { Sub.fresh b.generation with state := .joining, producer := p, ring := r, newest := newest, depth := depth,
                                window := window }

/-- DPC reserves the FREE line with the lowest number (R51). -/
def State.reserveLine (s : State) (i : SubIdx) : State :=
  match s.lowestFreeLine with
  | some l => s.setLine l (.reserved i)
  | none => s

/-- JOIN. -/
def takeJoin (w0 w1 w2 w3 : Word) (s : State) : State :=
  match joinArgsOk w0 w1 w2 w3, ringOfWord w1 with
  | true, some r =>
    let p : Station := w0.setWidth 5
    if p = s.lpc.stationNumber then s.refuse .self
    else
      match s.findSub p r with
      | some j => s.finish .duplicate (BitVec.ofNat 32 j.val) 0
      | none =>
        match s.lowestFreeSub with
        | none => s.refuse .noRoom
        | some i =>
          let s := s.modSub i fun b => b.joining p r (w2 == 1) (joinDepth w3) (joinWindow w3)
          let s := s.reserveLine i
          let s := s.finish .ok (BitVec.ofNat 32 i.val) 0
          s.claim i (.join (w2 == 1))
  | _, _ => s.refuse .badArg

/-! ### LEAVE (R41, R82, R105, R121) -/

/-- The record at entry to LEAVING from ACTIVE or FINISHING, after the cut at PP. -/
def Sub.leaving (b : Sub) : Sub :=
  { b.withdrawClaims with state := .leaving, poll := none, lineWait := false, pullWait := false, issue := none,
                          blockWait := none, keepalive := none, releasePending := false }

/-- Entry to LEAVING. From JOINING the JOIN stays bound or waiting, and no unit has anything else to change. -/
def State.enterLeaving (s : State) (i : SubIdx) : State :=
  if (s.sub i).state = .joining then s.modSub i fun b => { b with state := .leaving }
  else ((s.cutAt i (s.sub i).pp).modSub i Sub.leaving).flushTest i

/-- LEAVE. -/
def takeLeave (w0 : Word) (s : State) : State :=
  match subOfWord w0 with
  | none => s.refuse .badArg
  | some i =>
    match (s.sub i).state with
    | .joining | .active | .finishing => (settle ((s.finish .ok 0 0).enterLeaving i)).leaveTest i
    | _ => s.refuse .state

/-! ### FLUSH (R77 to R81) -/

/-- The subscription is ACTIVE or FINISHING. -/
def Sub.consuming (b : Sub) : Bool := b.state == .active || b.state == .finishing

/-- FLUSH of one subscription. -/
def takeFlushOne (w0 : Word) (s : State) : State :=
  match subOfWord w0 with
  | none => s.refuse .badArg
  | some i =>
    if (s.sub i).consuming then
      let s := s.finish .ok (((s.sub i).generation + 1).setWidth 32) 0
      let s := (s.flushSub i true).flushTest i
      ((lineWaitRound s).evaluate [i]).finishingTest i
    else s.refuse .state

/-- The subscriptions that a FLUSH ALL takes (R80). -/
def State.flushable (s : State) : List SubIdx := (List.finRange 24).filter fun i => (s.sub i).consuming

/-- A subscription is counted as added to the flush-all set, once since the set was last empty (R80). -/
def countFlushed (s : State) (i : SubIdx) : State :=
  if i ∈ s.dpc.flushAdded then s else { s with dpc := { s.dpc with flushAdded := s.dpc.flushAdded ++ [i] } }

/-- A subscription is added to the flush-all set; one already in it stays in it once (R80). -/
def addToFlushAll (s : State) (i : SubIdx) : State := (countFlushed s i).modSub i fun b => { b with inFlushAll := true }

/-- FLUSH ALL (R80): the set first, then R78 and the completion test for each in increasing order, then what follows. -/
def takeFlushAll (s : State) : State :=
  let is := s.flushable
  let s := s.finish .ok (BitVec.ofNat 32 is.length) 0
  let s := is.foldl addToFlushAll s
  let s := if is.isEmpty && s.flushAllEmpty then s.postFlushAll else s
  let s := is.foldl (fun s i => (s.flushSub i false).flushTest i) s
  is.foldl State.finishingTest ((lineWaitRound s).evaluate is)

/-- FLUSH: the argument 255 names ALL (R77). -/
def takeFlush (w0 : Word) (s : State) : State := if w0 = 255 then takeFlushAll s else takeFlushOne w0 s

/-! ### DISMISS (R46) and SUB_STATUS (R47) -/

/-- DISMISS. -/
def takeDismiss (w0 : Word) (s : State) : State :=
  match subOfWord w0 with
  | none => s.refuse .badArg
  | some i =>
    if (s.sub i).state ≠ .ended then s.refuse .state
    else if (s.sub i).rm ≠ (s.sub i).dp then s.finish .pending ((s.sub i).dp - (s.sub i).rm) 0
    else (s.modSub i fun b => Sub.fresh b.generation).finish .ok 0 0

/-- SUB_STATUS. -/
def takeSubStatus (w0 view : Word) (s : State) : State :=
  match subOfWord w0 with
  | none => s.refuse .badArg
  | some i =>
    match s.subView i view with
    | some (r0, r1) => s.finish .ok r0 r1
    | none => s.refuse .badArg

/-! ### ACCEPT (R99) and RETIRE (R100 to R102) -/

/-- ACCEPT: its result first, then the deliveries that the room allows. -/
def takeAccept (k : Word) (s : State) : State :=
  if s.pdu.fill < k.toNat then s.refuse .badArg
  else
    let read := (s.pdu.readIndex + k.toNat) % s.pdu.capacity
    let s := { s with pdu := { s.pdu with readIndex := read, fill := s.pdu.fill - k.toNat } }
    deliverAll (s.finish .ok (BitVec.ofNat 32 read) (BitVec.ofNat 32 s.pdu.fill))

/-- The release batch test (R102). -/
def State.batchTest (s : State) (i : SubIdx) : State :=
  if (s.sub i).consuming && decide (s.config.releaseBatch ≤ ((s.sub i).rm - (s.sub i).lastReported).toNat)
  then s.modSub i fun b => { b with releasePending := true } else s

/-- RETIRE. -/
def takeRetire (w0 seq : Word) (s : State) : State :=
  match subOfWord w0 with
  | none => s.refuse .badArg
  | some i =>
    let b := s.sub i
    if b.state = .free then s.refuse .state
    else if seq ≠ b.rm ∨ b.rm = b.dp then s.finish .order b.rm b.dp
    else
      let s := s.mapBlocks (Block.retire i b.rm)
      let s := s.modSub i fun b => { b with rm := b.rm + 1 }
      let s := s.finish .ok (b.rm + 1) 0
      (deliverAll (blockGrantRound s)).batchTest i

end Sys2Proof.Machine
end

