-- ==== Sys2Proof/Machine/LocalPort.lean ====
section
/-! DEFINITION. The Local Port Controller (chapter 9): reset, START and its completion, the command slot, the register and
memory windows, and the meanings of the rows that the local controller sends. -/
namespace Sys2Proof.Machine

/-! ### Reset (R173, R174) -/

/-- RESET (R173): every unit takes its reset values; station memory is kept across RESET# (R2, R85) and holds nothing
written after power-on (log entries 1 and 17). -/
def execReset (powerOn : Bool) (s : State) : Result :=
  .next { State.reset with memory := if powerOn then [] else s.memory, pending := s.pending, freeIndex := s.freeIndex }

/-- RESET_RELEASE (R174), at the end of a reset; it does not happen in CONFIG or RUNNING. -/
def execResetRelease (st : Station) (br : BitVec 2) (s : State) : Result :=
  if s.lpc.state = .reset then
    .next { State.reset with
      lpc := { Lpc.reset with state := .config, stationNumber := st, bitRate := bitRateCode br, ld := s.lpc.ld },
      memory := s.memory, pending := s.pending, freeIndex := s.freeIndex }
  else .next s

/-! ### START (R176 to R178) -/

/-- START is taken: refused in RUNNING, else it begins to read the start record, with BUSY at 1 (R176). -/
def takeStart (s : State) : State :=
  if s.running then s.refuse .state else { s with lpc := { s.lpc with slot := .starting [] } }

/-- Word `k` of the record as START reads it: the value captured before a local write, or what memory holds (R178). -/
def State.startWord (s : State) (captured : List (Nat × Word)) (k : Nat) : Word :=
  match captured.find? fun p => p.1 == k with
  | some p => p.2
  | none => s.wordAt (addr (4 * k))

/-- The record as START reads it; the words that carry no field are not read (R175). -/
def State.startRecord (s : State) (captured : List (Nat × Word)) : StartRecord :=
  { w0 := s.startWord captured 0, w1 := s.startWord captured 1, w2 := s.startWord captured 2, w3 := s.startWord captured 3,
    w4 := s.startWord captured 4, w5 := s.startWord captured 5, w6 := s.startWord captured 6, w7 := s.startWord captured 7 }

/-- A HELLO (R171): the station's number and incarnation, every other header field zero. -/
def State.helloFrame (s : State) : Frame := headerFrame .hello { s.header with broadcast := true }

/-- A START whose fields all pass (R177). -/
def State.startUp (s : State) (c : StartConfig) : State :=
  let s := { s with lpc := { s.lpc with config := c, state := .running } }
  let s := { s with pdu := { s.pdu with blocks := List.replicate c.poolBlocks .free, capacity := c.queueCapacity,
                                        writeIndex := 0, readIndex := 0, fill := 0 } }
  let s := s.placeOneOff s.helloFrame
  s.finish .ok (s.lpc.stationNumber.setWidth 32) (s.lpc.bitRate.setWidth 32)

/-- The completion of a START (R176, R177). -/
def completeStart (s : State) : State :=
  match s.lpc.slot with
  | .starting captured =>
    let r := s.startRecord captured
    match r.firstBad with
    | some i => s.finish .badConfig (BitVec.ofNat 32 i) (BitVec.ofNat 32 (r.field i))
    | none => s.startUp r.toConfig
  | _ => s

/-! ### The command slot (R181) -/

/-- The command of a code of Table 9-4, handed to the unit that owns it. -/
def State.takeCommand (s : State) : State :=
  match s.lpc.cmd.toNat with
  | 1 => takeStart s
  | 2 => takeOpen s.lpc.arg0 s.lpc.arg1 s.lpc.arg2 s.lpc.arg3 s
  | 3 => takeAdvance s.lpc.arg0 s.lpc.arg1 s
  | 4 => takeRetract s.lpc.arg0 s.lpc.arg1 s
  | 5 => takeWithdraw s.lpc.arg0 s.lpc.arg1 s
  | 6 => takeRingStatus s.lpc.arg0 s.lpc.arg1 s
  | 7 => takeJoin s.lpc.arg0 s.lpc.arg1 s.lpc.arg2 s.lpc.arg3 s
  | 8 => takeLeave s.lpc.arg0 s
  | 9 => takeFlush s.lpc.arg0 s
  | 10 => takeDismiss s.lpc.arg0 s
  | 11 => takeSubStatus s.lpc.arg0 s.lpc.arg1 s
  | 12 => takeAccept s.lpc.arg0 s
  | 13 => takeRetire s.lpc.arg0 s.lpc.arg1 s
  | _ => s.refuse .badArg

/-- A write to GO (R181): ignored in RESET and while BUSY is 1, else the command is judged. -/
def State.goWrite (s : State) : State :=
  if s.lpc.state = .reset ∨ s.busy = true then s
  else if s.lpc.cmd.toNat < 1 ∨ 13 < s.lpc.cmd.toNat then s.refuse .badArg
  else if s.lpc.state = .config ∧ s.lpc.cmd ≠ 1 then s.refuse .state
  else s.takeCommand

/-- Write argument register `k` (Table 9-3). -/
def State.writeArg (s : State) (k : Nat) (w : Word) : State :=
  match k with
  | 0 => { s with lpc := { s.lpc with arg0 := w } }
  | 1 => { s with lpc := { s.lpc with arg1 := w } }
  | 2 => { s with lpc := { s.lpc with arg2 := w } }
  | 3 => { s with lpc := { s.lpc with arg3 := w } }
  | _ => s

/-- Write CMD (Table 9-3). -/
def State.writeCmd (s : State) (c : Byte) : State := { s with lpc := { s.lpc with cmd := c } }

/-- Issue a command with the argument words it uses (section 9.5, "Issuing a command"; log entry 8): ARG0 onward, CMD, GO.
In RESET every write is ignored (R173). -/
def State.issue (s : State) (code : Byte) (args : List Word) : State :=
  if s.lpc.state = .reset then s
  else ((args.zipIdx.foldl (fun s p => s.writeArg p.2 p.1) s).writeCmd code).goWrite

/-! ### The rows that are commands of Table 9-4 -/

/-- START (R176). -/
def execStart (s : State) : Result := .next (s.issue 1 [])

/-- START_COMPLETION (R176, R177); without a START in progress there is no completion (log entry 7). -/
def execStartCompletion (s : State) : Result := .next (completeStart s)

/-- OPEN (R7, R8). -/
def execOpen (ring base count retain : Word) (s : State) : Result := .next (s.issue 2 [ring, base, count, retain])

/-- ADVANCE (R9). -/
def execAdvance (ring n : Word) (s : State) : Result := .next (s.issue 3 [ring, n])

/-- ADVANCE_COMPLETION (R11, R12); without an ADVANCE in progress there is no completion (log entry 7). -/
def execAdvanceCompletion (s : State) : Result := .next (completeAdvance s)

/-- RETRACT (R14, R15). -/
def execRetract (ring t : Word) (s : State) : Result := .next (s.issue 4 [ring, t])

/-- WITHDRAW (R138, R139). -/
def execWithdraw (ring drain : Word) (s : State) : Result := .next (s.issue 5 [ring, drain])

/-- RING_STATUS (R22). -/
def execRingStatus (ring view : Word) (s : State) : Result := .next (s.issue 6 [ring, view])

/-- JOIN (R27, R28). -/
def execJoin (producer ring policy depthWindow : Word) (s : State) : Result :=
  .next (s.issue 7 [producer, ring, policy, depthWindow])

/-- LEAVE (R41). -/
def execLeave (sub : Word) (s : State) : Result := .next (s.issue 8 [sub])

/-- FLUSH (R77 to R79). -/
def execFlush (sub : Word) (s : State) : Result := .next (s.issue 9 [sub])

/-- FLUSH_ALL (R80). -/
def execFlushAll (s : State) : Result := .next (s.issue 9 [255])

/-- DISMISS (R46). -/
def execDismiss (sub : Word) (s : State) : Result := .next (s.issue 10 [sub])

/-- SUB_STATUS (R47). -/
def execSubStatus (sub view : Word) (s : State) : Result := .next (s.issue 11 [sub, view])

/-- ACCEPT (R99). -/
def execAccept (k : Word) (s : State) : Result := .next (s.issue 12 [k])

/-- RETIRE (R100 to R102). -/
def execRetire (sub seq : Word) (s : State) : Result := .next (s.issue 13 [sub, seq])

/-- UNDEFINED_COMMAND_CODE (R181). -/
def execUndefinedCommandCode (code : Byte) (s : State) : Result := .next (s.issue code [])

/-! ### The register and memory windows (R179, R180, R190) -/

/-- The word that an access returns on LD. -/
def State.withLd (s : State) (w : Word) : State := { s with lpc := { s.lpc with ld := w } }

/-- REGISTER_WRITE (R180): CMD and ARG0 to ARG3 are storage, GO starts a command, every other offset ignores the write. In
RESET the write has no effect (R173); with both strobes asserted it has none, and the read returns 0 (R190). -/
def execRegisterWrite (alsoRead : Bool) (la : Half) (ld : Word) (s : State) : Result :=
  if alsoRead then .next (s.withLd 0)
  else if s.lpc.state = .reset then .next s
  else
    match (la.extractLsb' 0 4).toNat with
    | 0 => .next (s.writeCmd (ld.extractLsb' 0 8))
    | 1 => .next (s.writeArg 0 ld)
    | 2 => .next (s.writeArg 1 ld)
    | 3 => .next (s.writeArg 2 ld)
    | 4 => .next (s.writeArg 3 ld)
    | 5 => .next s.goWrite
    | _ => .next s

/-- The oldest notice leaves the queue; with the notices-lost flag set, NOTICES_LOST takes the freed place (R185, R186). -/
def State.readNotice (s : State) : State :=
  match s.lpc.notices with
  | [] => ({ s with lpc := { s.lpc with ntc1 := 0 } } : State).withLd 0
  | n :: rest =>
    let s := ({ s with lpc := { s.lpc with notices := rest, ntc1 := n.value } } : State).withLd n.ntc0
    if s.lpc.lost then
      { s with lpc := { s.lpc with
        notices := rest ++ [{ kind := .noticesLost, index := 0, reason := 0, value := s.lpc.dropped }],
        lost := false, dropped := 0 } }
    else s

/-- NTC0_READ (R185, R186). In RESET, and with both strobes asserted, the read returns 0 and removes nothing (R173, R190). -/
def execNtc0Read (alsoWrite : Bool) (s : State) : Result :=
  if s.lpc.state = .reset then .next (s.withLd 0)
  else if alsoWrite then .next (s.withLd 0)
  else .next s.readNotice

/-- A local write reaches a word of the start record while START reads it: the old word is captured when START has already
read it, which the manual leaves open (R178, log 2). -/
def State.captureStartWord (s : State) (la : Half) : State :=
  match s.lpc.slot with
  | .starting captured =>
    if la.toNat < 16 ∧ captured.all (fun p => p.1 != la.toNat) = true then
      let captured := if Config.startWordRead s.freeIndex then captured ++ [(la.toNat, s.wordAt (la ++ 0#2))] else captured
      { s with lpc := { s.lpc with slot := .starting captured }, freeIndex := s.freeIndex + 1 }
    else s
  | _ => s

/-- LOCAL_MEMORY_ACCESS (R179, R190): the word at byte offset 4 × LA. -/
def execLocalMemoryAccess (lrd lwr : Bool) (la : Half) (ld : Word) (s : State) : Result :=
  if s.lpc.state = .reset then .next (if lrd then s.withLd 0 else s)
  else
    match lrd, lwr with
    | true, true => .next (s.withLd 0)
    | true, false => .next (s.withLd (s.wordAt (la ++ 0#2)))
    | false, true => .next ((progressValidation (s.captureStartWord la)).putBytes (la ++ 0#2) (wordBytes ld))
    | false, false => .next s

end Sys2Proof.Machine
end

