-- ==== Sys2Proof/Machine/Link.lean ====
section
/-! DEFINITION. The transmit side of the Link Interface Unit (sections 8.1 to 8.4): what the station offers at an
arbitration and what a win does; the grants of the Request Tracker as rows of their own. -/
namespace Sys2Proof.Machine

/-! ### The offer (R160, R161) -/

/-- The source of the frame that the station offers. -/
inductive Offer where
  | oneOff (f : Frame)
  | announce (r : RingIdx)
  | release (i : SubIdx)
  | reply (f : Frame)
  | request (t : TagIdx) (b : Binding)
  deriving DecidableEq, Repr

/-- The first ring after the announce pointer with announce pending set (R161). -/
def State.nextAnnounce (s : State) : Option RingIdx :=
  (after s.liu.announcePtr).find? fun r => (s.ring r).announcePending

/-- The first subscription after the release pointer with release pending set (R161). -/
def State.nextRelease (s : State) : Option SubIdx :=
  (after s.liu.releasePtr).find? fun i => (s.sub i).releasePending

/-- The request at the head of the request transmit queue (R166). -/
def State.headRequest (s : State) : Option Offer :=
  match s.rqt.queue with
  | [] => none
  | t :: _ => (s.tag t).bound.map fun b => .request t b

/-- The one frame offered: a control frame, else a reply, else a request; nothing when none is ready, and nothing outside
RUNNING (R160, R161, R170). -/
def State.offer (s : State) : Option Offer :=
  if s.running then
    match s.liu.oneOff, s.nextAnnounce, s.nextRelease, s.liu.replies with
    | f :: _, _, _, _ => some (.oneOff f)
    | [], some r, _, _ => some (.announce r)
    | [], none, some i, _ => some (.release i)
    | [], none, none, f :: _ => some (.reply f)
    | [], none, none, [] => s.headRequest
  else none

/-! ### The frames (R163, R191, R192) -/

/-- The tail block of a ring, without a slot count code. -/
def Ring.tailBlock (r : Ring) : TailBlock := { tail := r.tail, revision := r.revision, state := r.state.code, slotCode := 0 }

/-- The ANNOUNCE of a ring, as the record stands (R21, R163). -/
def State.announceFrame (s : State) (r : RingIdx) : Frame :=
  { kind := .announce, header := { s.header with broadcast := true, epoch := (s.ring r).epoch, ring := ringField r },
    tail := (s.ring r).tailBlock, body := [] }

/-- The RELEASE of a subscription, as the record stands (R104, R163). -/
def State.releaseFrame (s : State) (i : SubIdx) : Frame :=
  headerFrame .release { s.header with dest := (s.sub i).producer, epoch := (s.sub i).epoch, ring := ringField (s.sub i).ring,
                                       seq := (s.sub i).rm }

/-- The frame of a request, formed from the tag and its subscription (R109, Table 10-3). A JOIN carries epoch 0 (R28). -/
def State.requestFrame (s : State) (t : TagIdx) (b : Binding) : Frame :=
  let x := s.sub b.sub
  let h := { s.header with dest := x.producer, ring := ringField x.ring, tag := BitVec.ofNat 6 t.val,
                           useCount := (s.tag t).useCount }
  match b.request with
  | .join newest => headerFrame .join { h with newest := newest }
  | .fetch first count _ => headerFrame .fetch { h with epoch := x.epoch, seq := first, count := BitVec.ofNat 5 count }
  | .pull seq chunk length _ =>
    headerFrame .pull { h with epoch := x.epoch, seq := seq, count := BitVec.ofNat 5 chunk, length := BitVec.ofNat 9 length }

/-- The frame of an offer. -/
def State.offerFrame (s : State) : Offer → Frame
  | .oneOff f => f
  | .announce r => s.announceFrame r
  | .release i => s.releaseFrame i
  | .reply f => f
  | .request t b => s.requestFrame t b

/-- The arbitration key of an offer (R156): its class and this station's number. -/
def State.offerKey (s : State) (o : Offer) : Byte := arbitrationKey (s.offerFrame o).kind s.lpc.stationNumber

/-! ### The win (R164) -/

/-- The keepalive timer of a subscription is restarted by a transmission (R103). -/
def State.restartKeepalive (s : State) (i : SubIdx) : State :=
  s.modSub i fun b => { b with keepalive := some s.config.keepalive }

/-- A FETCH or PULL of a subscription in ACTIVE or FINISHING restarts its keepalive timer (R103, R114). -/
def State.keepaliveAtRequest (s : State) (b : Binding) : State :=
  if !b.request.isJoin && (s.sub b.sub).consuming then s.restartKeepalive b.sub else s

/-- What the win of an offer does (R164). -/
def State.win (s : State) : Offer → State
  | .oneOff _ => { s with liu := { s.liu with oneOff := s.liu.oneOff.drop 1 } }
  | .announce r =>
    let s := s.modRing r fun g => { g with announcePending := false }
    { s with liu := { s.liu with announcePtr := r } }
  | .release i =>
    let s := s.modSub i fun b => { b with releasePending := false, lastReported := b.rm }
    ({ s with liu := { s.liu with releasePtr := i } } : State).restartKeepalive i
  | .reply _ => { s with liu := { s.liu with replies := s.liu.replies.drop 1 } }
  | .request t b =>
    let s := { s with rqt := { s.rqt with queue := s.rqt.queue.drop 1 } }
    let s := s.modTag t fun g => { g with bound := some { b with deadline := some s.config.requestTimeout } }
    runGrants (s.keepaliveAtRequest b)

/-- The frame on the medium (log 18). -/
def State.setTransmitting (s : State) (f : Option Frame) : State := { s with liu := { s.liu with transmitting := f } }

/-- The lowest key wins; equal keys of stations strapped alike both win (R157, R158). -/
def keyWins (own : Byte) (others : List Byte) : Bool := others.all fun k => decide (own.toNat ≤ k.toNat)

/-- ARBITRATION (R157 to R164): the station offers what it has ready, against the keys that the other stations offer. -/
def execArbitration (others : List Byte) (s : State) : Result :=
  match s.offer with
  | none => .next (s.setTransmitting none)
  | some o =>
    if keyWins (s.offerKey o) others then .next ((s.win o).setTransmitting (some (s.offerFrame o)))
    else .next (s.setTransmitting none)

/-! ### Grants as rows of their own (R112, R113; logs 7 and 9) -/

/-- TAG_GRANT (R112): one grant, where its conditions hold. -/
def execTagGrant (s : State) : Result := .next ((grantOnce s).getD s)

/-- RETRY_LINE_MOVE (R113): the oldest retry moves, where room is there. -/
def execRetryLineMove (s : State) : Result := .next ((moveRetryOnce s).getD s)

end Sys2Proof.Machine
end

