-- ==== Sys2Proof/Machine/Timers.lean ====
section
/-! DEFINITION. The expiries of the station's timers: the deadline of a request (R115 to R117), keepalive (R103), poll
(R63), silence (R136) and drain (R141). An expiry is of a timer that has run out: for a timer that is stopped, or was restarted since,
the row changes nothing (R103, R108, R120, R143; log 7). -/
namespace Sys2Proof.Machine

/-! ### Deadlines -/

/-- A request is retried: it waits at the tail of the request transmit queue, or of the retry line (R115). -/
def State.retry (s : State) (t : TagIdx) (b : Binding) : State :=
  let s' := s.modTag t fun g => { g with bound := some { b with attempts := b.attempts + 1, deadline := none } }
  if s.requestRoom && s.rqt.retryLine.isEmpty then { s' with rqt := { s'.rqt with queue := s'.rqt.queue ++ [t] } }
  else { s' with rqt := { s'.rqt with retryLine := s'.rqt.retryLine ++ [t] } }

/-- A FETCH of a subscription has ended (R72). -/
def State.endFetch (s : State) (i : SubIdx) : State := s.modSub i fun b => { b with fetchesOut := b.fetchesOut - 1 }

/-- A PULL of a subscription has ended (R92). -/
def State.endPull (s : State) (i : SubIdx) : State := s.modSub i fun b => { b with pullsOut := b.pullsOut - 1 }

/-- The owner's part of an abandonment in LEAVING (R116): R72 for a FETCH, R106 for a PULL, nothing further for a JOIN. -/
def State.abandonRequest (s : State) (i : SubIdx) : Request → State
  | .join _ => s
  | .fetch _ _ _ => (s.endFetch i).flushTest i
  | .pull q _ _ _ => (s.endPull i).abandonPull i q

/-- The deadline timer of a SENT tag runs out (R115 to R117). -/
def State.deadlineRunsOut (s : State) (t : TagIdx) (b : Binding) : State :=
  if (s.sub b.sub).state = .leaving then
    (settle ((s.freeTag t).abandonRequest b.sub b.request)).leaveTest b.sub
  else if b.attempts ≤ s.config.retryLimit then s.retry t b
  else (s.freeTag t).endNow b.sub .silent

/-- DEADLINE_EXPIRY. -/
def execDeadlineExpiry (t : TagIdx) (s : State) : Result :=
  match (s.tag t).bound with
  | none => .next s
  | some b => if Timer.due b.deadline then .next (s.deadlineRunsOut t b) else .next s

/-! ### Keepalive and poll -/

/-- KEEPALIVE_EXPIRY (R103): release pending is set and the timer is left stopped. -/
def execKeepaliveExpiry (i : SubIdx) (s : State) : Result :=
  if Timer.due (s.sub i).keepalive then .next (s.modSub i fun b => { b with keepalive := none, releasePending := true })
  else .next s

/-- The conditions of the probe (R63). -/
def Sub.probes (b : Sub) : Bool := b.state == .active && b.ap == b.kt && b.fetchesOut == 0 && !b.flushPending

/-- The poll timer restarts with the poll interval. -/
def State.restartPoll (s : State) (i : SubIdx) : State := s.modSub i fun b => { b with poll := some s.config.pollInterval }

/-- POLL_EXPIRY (R63): the timer restarts; the probe is a FETCH of count 0 at AP. Its count is a trigger of R58. -/
def execPollExpiry (i : SubIdx) (s : State) : Result :=
  if Timer.due (s.sub i).poll then
    let s := s.restartPoll i
    if (s.sub i).probes then
      let s := s.modSub i fun b => { b with fetchesOut := b.fetchesOut + 1 }
      .next ((s.claim i (.fetch (s.sub i).ap 0 (s.sub i).generation)).evaluate [i])
    else .next s
  else .next s

/-! ### Silence and drain -/

/-- SILENCE_EXPIRY (R136): an EVICT is placed, then the member is removed with reason SILENT. -/
def execSilenceExpiry (r : RingIdx) (h : Station) (s : State) : Result :=
  match (s.ring r).member h with
  | none => .next s
  | some m =>
    if Timer.due m.silence then
      .next ((s.placeOneOff (s.evictFrame r h)).removeMember r h .memberEvicted EndReason.silent.byte)
    else .next s

/-- DRAIN_EXPIRY (R141): the ring closes with reason 1, and every member still on the roster is dropped. -/
def execDrainExpiry (r : RingIdx) (s : State) : Result :=
  if Timer.due (s.ring r).drain then .next (s.closeRing r 1) else .next s

end Sys2Proof.Machine
end

