-- ==== Sys2Proof/Machine/Frames.lean ====
section
/-! DEFINITION. The receive side: the receive filter (R167), the frames that reach SBM and the rosters, and the entry of
requests into the Serve Queue. -/
namespace Sys2Proof.Machine

/-! ### The receive filter (R167, R194) -/

/-- Step 5 of the filter, by kind. -/
def State.filterKind (s : State) (k : FrameKind) (h : Header) : Bool :=
  match k with
  | .hello => true
  | .announce => (s.findSub h.source (ringOfField h.ring)).isSome
  | _ => h.dest == s.lpc.stationNumber

/-- The receive filter accepts an arriving frame of kind `k`. -/
def State.accepts (s : State) (k : FrameKind) (a : Arrival) : Bool :=
  s.running && a.intact && a.header.source != s.lpc.stationNumber && wellFormedArrival k a && s.filterKind k a.header

/-! ### SBM's checks (R31 to R33) -/

/-- A frame about a subscription is examined: ACTIVE, FINISHING, or LEAVING when welcomed (R31). -/
def Sub.examined (b : Sub) : Bool := b.consuming || (b.state == .leaving && b.welcomed)

/-- What the checks of R32 and R33 find: the frame passes, or the subscription ends, or the frame is of an older epoch. -/
inductive Check where
  | pass
  | ends (reason : EndReason)
  | older
  deriving DecidableEq, Repr

/-- The incarnation check, then the epoch check (R32, R33). -/
def Sub.check (b : Sub) (h : Header) : Check :=
  if h.incarnation ≠ b.incarnation then .ends .restarted
  else if h.epoch = b.epoch then .pass
  else if newer h.epoch b.epoch then .ends .epoch
  else .older

/-! ### HELLO (R34, R137) -/

/-- The subscriptions to a station in JOINING, ACTIVE, FINISHING or LEAVING, in index order. -/
def State.liveTo (s : State) (h : Station) : List SubIdx :=
  (List.finRange 24).filter fun i => (s.sub i).state.live && (s.sub i).producer == h

/-- HELLO_FRAME (R34): PEER_RESTARTED, then the forced ends in index order, and then what they free. -/
def execHelloFrame (a : Arrival) (s : State) : Result :=
  if s.accepts .hello a then
    let h := a.header.source
    let s' := s.post { kind := .peerRestarted, index := 0, reason := 0, value := h.setWidth 32 }
    .next (settle ((s.liveTo h).foldl (fun s i => s.forcedEnd i .restarted) s'))
  else .next s

/-- A restarted station leaves the roster of one ring, whatever the incarnations (R137). -/
def State.helloAtRing (h : Station) (s : State) (r : RingIdx) : State :=
  if ((s.ring r).member h).isSome then s.removeMember r h .memberEvicted EndReason.restarted.byte else s

/-- HELLO_ROSTER_REMOVAL (R137): the rings in increasing number. -/
def execHelloRosterRemoval (a : Arrival) (s : State) : Result :=
  if s.accepts .hello a then .next ((List.finRange 8).foldl (State.helloAtRing a.header.source) s) else .next s

/-! ### ANNOUNCE (R31 to R33, R39, R56, R57) -/

/-- What the fetch decision watches for one subscription (R58). -/
def Sub.watched (b : Sub) : Seq × Seq × Seq × Nat × Bool := (b.kt, b.dp, b.ap, b.fetchesOut, b.flushPending)

/-- Evaluate a subscription when something that R58 names has changed since `before`. -/
def State.evaluateChanged (s : State) (i : SubIdx) (before : Sub) : State :=
  if (s.sub i).watched = before.watched then s else s.evaluate [i]

/-- Tail information with its ring state, as an ANNOUNCE and an accepted LISTING bring it (R55, R56, R71): applied, then the
poll timer restarted in ACTIVE, then FINISHING entered when the ring is withdrawing. -/
def State.takeTail (s : State) (i : SubIdx) (t : TailBlock) : State :=
  let s := s.applyTail i t.tail t.revision
  if (s.sub i).state = .active then
    let s := s.restartPoll i
    if t.state = 2 then s.enterFinishing i t.tail t.revision else s
  else s

/-- An ANNOUNCE that passes SBM's checks. -/
def State.takeAnnounce (s : State) (i : SubIdx) (t : TailBlock) : State :=
  ((lineWaitRound (s.takeTail i t)).evaluateChanged i (s.sub i)).finishingTest i

/-- ANNOUNCE_FRAME. -/
def execAnnounceFrame (a : Arrival) (s : State) : Result :=
  if s.accepts .announce a then
    match s.findSub a.header.source (ringOfField a.header.ring) with
    | none => .next s
    | some i =>
      if (s.sub i).examined then
        match (s.sub i).check a.header with
        | .pass => .next (s.takeAnnounce i a.tail)
        | .ends e => .next (s.endNow i e)
        | .older => .next s
      else .next s
  else .next s

/-! ### EVICT (R31 to R33, R35) -/

/-- EVICT_FRAME. -/
def execEvictFrame (a : Arrival) (s : State) : Result :=
  if s.accepts .evict a then
    match s.findSub a.header.source (ringOfField a.header.ring) with
    | none => .next s
    | some i =>
      if (s.sub i).examined then
        match (s.sub i).check a.header with
        | .pass => .next (s.endNow i .evicted)
        | .ends e => .next (s.endNow i e)
        | .older => .next s
      else .next s
  else .next s

/-! ### LEAVE and RELEASE at the roster (R131 to R134) -/

/-- LEAVE_FRAME (R134). -/
def execLeaveFrame (a : Arrival) (s : State) : Result :=
  if s.accepts .leave a then
    let r := ringOfField a.header.ring
    if (s.ring r).state = .closed then .next s
    else if a.header.epoch ≠ 0 ∧ a.header.epoch ≠ (s.ring r).epoch then .next s
    else
      match s.compareRoster r a.header.source a.header.incarnation with
      | (s', true) => .next (s'.removeMember r a.header.source .memberLeft 0)
      | (s', false) => .next s'
  else .next s

/-- The mark of a member is adopted when it lies in [its release mark, commit point], and the reclaim point recomputed
(R132). -/
def Ring.adoptMark (r : Ring) (h : Station) (m : Seq) : Ring :=
  match r.member h with
  | none => r
  | some x => if inClosed x.mark r.commit m then (r.modMember h fun y => { y with mark := m }).recompute else r

/-- RELEASE_FRAME (R131 to R133). -/
def execReleaseFrame (a : Arrival) (s : State) : Result :=
  if s.accepts .release a then
    let r := ringOfField a.header.ring
    let h := a.header.source
    if a.header.epoch ≠ (s.ring r).epoch then .next s
    else
      match s.compareRoster r h a.header.incarnation with
      | (s', true) => .next ((s'.modRing r fun g => g.adoptMark h a.header.seq).restartSilence r h)
      | (s', false) => .next (s'.placeOneOff (s'.evictFrame r h))
  else .next s

/-! ### Requests into the Serve Queue (R144) -/

/-- The frame kind of a request. -/
def requestFrameKind : RequestKind → FrameKind
  | .join => .join | .fetch => .fetch | .pull => .pull

/-- The fields that an entry keeps, by kind. -/
def requestFields (k : RequestKind) (h : Header) : RequestBody :=
  match k with
  | .join => .join h.newest
  | .fetch => .fetch h.seq h.count.toNat
  | .pull => .pull h.seq h.count.toNat h.length.toNat

/-- The entry of an arriving request. -/
def serveEntryOf (k : RequestKind) (h : Header) : ServeEntry :=
  { source := h.source, incarnation := h.incarnation, ring := ringOfField h.ring, epoch := h.epoch, tag := h.tag,
    useCount := h.useCount, body := requestFields k h }

/-- REQUEST_FRAME (R144): to the tail of the Serve Queue, or discarded when it holds 16. -/
def execRequestFrame (k : RequestKind) (a : Arrival) (s : State) : Result :=
  if s.accepts (requestFrameKind k) a then
    if s.pub.serveQueue.length < Config.servePlaces then
      .next { s with pub := { s.pub with serveQueue := s.pub.serveQueue ++ [serveEntryOf k a.header] } }
    else .next s
  else .next s

end Sys2Proof.Machine
end

