-- ==== Sys2Proof/Machine/Replies.lean ====
section
/-! DEFINITION. The replies to this station's requests (R118, R119): WELCOME (R29, R43), REFUSE (R30, R36, R43), LISTING (R67 to
R72) and PAYLOAD (R93 to R95). -/
namespace Sys2Proof.Machine

/-! ### WELCOME -/

/-- The RESERVED line of a subscription becomes ASSIGNED to a group, its entries EMPTY (R52). -/
def State.assignReserved (s : State) (i : SubIdx) (g : Seq) : State :=
  s.mapLines fun l => if l = .reserved i then .assigned i g emptyEntries else l

/-- The record at its WELCOME in JOINING (R29, R87). -/
def Sub.welcome (b : Sub) (h : Header) (t : TailBlock) (c : StartConfig) : Sub :=
  { b with state := if t.state = 2 then .finishing else .active,
           incarnation := h.incarnation, epoch := h.epoch, welcomed := true,
           rm := h.seq, dp := h.seq, pp := h.seq, fp := h.seq, ap := h.seq, kt := t.tail, revision := t.revision,
           finalTail := if t.state = 2 then some t.tail else none,
           poll := if t.state = 2 then none else some c.pollInterval,
           fetchesOut := 0, pullsOut := 0, keepalive := some c.keepalive, lastReported := h.seq }

/-- A WELCOME in JOINING (R29): the record, the line, the notices, the fetch decision, and in FINISHING the test of R40. -/
def State.takeWelcome (s : State) (i : SubIdx) (h : Header) (t : TailBlock) : State :=
  let s := s.modSub i fun b => b.welcome h t s.config
  let s := s.assignReserved i (groupOf h.seq)
  let s := s.postSub .subActive i 0 h.seq
  let s := if t.state = 2 then s.postSub .subFinishing i 0 t.tail else s
  ((runGrants s).evaluate [i]).finishingTest i

/-- A WELCOME in LEAVING (R43): it sets welcomed, the incarnation and the epoch, and the leave completes. -/
def State.takeLateWelcome (s : State) (i : SubIdx) (h : Header) : State :=
  (settle (s.modSub i fun b => { b with welcomed := true, incarnation := h.incarnation, epoch := h.epoch })).leaveTest i

/-- WELCOME_FRAME. The tag becomes FREE first (R119). -/
def execWelcomeFrame (a : Arrival) (s : State) : Result :=
  if s.accepts .welcome a then
    match s.matchReply .welcome a.header with
    | none => .next s
    | some b =>
      let s := s.freeTag (tagOfField a.header.tag)
      match (s.sub b.sub).state with
      | .joining => .next (s.takeWelcome b.sub a.header a.tail)
      | .leaving => .next (s.takeLateWelcome b.sub a.header)
      | _ => .next (runGrants s)
  else .next s

/-! ### REFUSE -/

/-- The end reason of a REFUSE to a JOIN in JOINING (R30). -/
def joinRefusal (reason : BitVec 4) : EndReason :=
  if reason = 2 then .refusedFull else if reason = 1 then .refusedClosed else .fault

/-- The end reason of a REFUSE to a FETCH or PULL (R36; STALE_EPOCH with the recorded epoch, log 20). -/
def requestRefusal (reason : BitVec 4) : EndReason :=
  if reason = 3 then .evicted else if reason = 1 then .closed else .fault

/-- A REFUSE to the JOIN of a subscription: R30 in JOINING, R43 in LEAVING. -/
def State.takeJoinRefusal (s : State) (i : SubIdx) (h : Header) : State :=
  match (s.sub i).state with
  | .joining => s.endNow i (joinRefusal h.reason)
  | .leaving => (settle s).leaveTest i
  | _ => runGrants s

/-- The end that SBM's checks make of a reply to a FETCH or PULL (R32, R33): none when the reply passes. An older epoch in a
reply is a FAULT. -/
def Sub.replyEnd (b : Sub) (h : Header) : Option EndReason :=
  match b.check h with
  | .pass => none
  | .ends e => some e
  | .older => some .fault

/-- REFUSE_FRAME. -/
def execRefuseFrame (a : Arrival) (s : State) : Result :=
  if s.accepts .refuse a then
    match s.matchReply .refuse a.header with
    | none => .next s
    | some b =>
      let s := s.freeTag (tagOfField a.header.tag)
      match b.request with
      | .join _ => .next (s.takeJoinRefusal b.sub a.header)
      | _ =>
        match (s.sub b.sub).replyEnd a.header with
        | some e => .next (s.endNow b.sub e)
        | none => .next (s.endNow b.sub (requestRefusal a.header.reason))
  else .next s

/-! ### LISTING -/

/-- The content of a LISTING of the current flush generation (R68 to R71): the images, the cut at the lowest sequence asked
and not served, the advance of FP, then the tail information. -/
def State.takeListing (s : State) (i : SubIdx) (first : Seq) (count : Nat) (a : Arrival) : State :=
  let s := (bodyImages a.body).foldl (acceptImage i first count) s
  let served := a.header.count.toNat
  let u := first + BitVec.ofNat 32 served
  let s := if served < count ∧ inRange (s.sub i).fp (s.sub i).ap u = true then s.cutAt i u else s
  (s.advanceFill i).takeTail i a.tail

/-- The end of a FETCH by its LISTING, with what follows it: the flush (R79), the grants that the freed tag allows, the line
wait round, the fetch decision, and the tests of R40 and R43. -/
def State.finishFetch (s : State) (i : SubIdx) : State :=
  let s := (s.endFetch i).flushTest i
  (((lineWaitRound (runGrants s)).evaluate [i]).finishingTest i).leaveTest i

/-- LISTING_FRAME. -/
def execListingFrame (a : Arrival) (s : State) : Result :=
  if s.accepts .listing a then
    match s.matchReply .listing a.header with
    | none => .next s
    | some b =>
      let s := s.freeTag (tagOfField a.header.tag)
      match (s.sub b.sub).replyEnd a.header, b.request with
      | some e, _ => .next (s.endNow b.sub e)
      | none, .fetch first count generation =>
        if generation = (s.sub b.sub).generation then
          .next ((s.takeListing b.sub first count a).finishFetch b.sub)
        else .next (s.finishFetch b.sub)
      | none, _ => .next (runGrants s)
  else .next s

/-! ### PAYLOAD -/

/-- The first byte of a block (section 4.1). -/
def State.blockAddr (s : State) (block : Nat) : Addr := addr (s.config.poolBase + 256 * block)

/-- The descriptor's record once a chunk has arrived. -/
def PullRecord.arrive (p : PullRecord) (chunk : Nat) : PullRecord :=
  if p.arrived.contains chunk then p else { p with arrived := p.arrived ++ [chunk] }

/-- Every chunk of the descriptor has arrived. -/
def PullRecord.full (p : PullRecord) : Bool := p.arrived.length == chunkCount p.image.length.toNat

/-- A PAYLOAD of the right length for a descriptor still in [DP, PP) (R93). -/
def State.writeChunk (s : State) (i : SubIdx) (p : PullRecord) (chunk block : Nat) (body : List Byte) : State :=
  let s := s.putBytes (s.blockAddr block) body
  let p' := p.arrive chunk
  let s := s.modSub i fun b =>
    { b with pulls := b.pulls.map fun x => if x.image.seq == p.image.seq then p' else x }
  if p'.full then s.setEntry i p.image.seq (.complete p.image) else s

/-- The content of a PAYLOAD (R93 to R95). -/
def State.takePayload (s : State) (i : SubIdx) (q : Seq) (chunk length block : Nat) (body : List Byte) : State :=
  if body.length ≠ length then
    if (s.sub i).state = .leaving then s.abandonPull i q else s.forcedEnd i .fault
  else
    match (s.sub i).pullRecord q with
    | some p => s.writeChunk i p chunk block body
    | none => s

/-- PAYLOAD_FRAME: the content, then what the freed tag and blocks lead to, deliveries among them, then the test of R43. -/
def execPayloadFrame (a : Arrival) (s : State) : Result :=
  if s.accepts .payload a then
    match s.matchReply .payload a.header with
    | none => .next s
    | some b =>
      let s := s.freeTag (tagOfField a.header.tag)
      match (s.sub b.sub).replyEnd a.header, b.request with
      | some e, _ => .next (s.endNow b.sub e)
      | none, .pull q chunk length block =>
        .next ((settle ((s.endPull b.sub).takePayload b.sub q chunk length block a.body)).leaveTest b.sub)
      | none, _ => .next (runGrants s)
  else .next s

end Sys2Proof.Machine
end

