-- ==== Sys2Proof/Machine/Serve.lean ====
section
/-! DEFINITION. The serve engine (chapter 7, and the admission of section 6.2). -/
namespace Sys2Proof.Machine

/-- The REFUSE reasons of Table 10-5. -/
inductive Refused where
  | closed | rosterFull | notMember | staleEpoch | reclaimed | outOfRange
  deriving DecidableEq, Repr

/-- The code of a REFUSE reason (Table 10-5). -/
def Refused.code : Refused → BitVec 4
  | .closed => 1 | .rosterFull => 2 | .notMember => 3 | .staleEpoch => 4 | .reclaimed => 5 | .outOfRange => 6

/-! ### Replies (R145, R152) -/

/-- The common fields of a reply (R145): they copy the request's, and carry the ring's epoch at the serve. -/
def State.replyHeader (s : State) (e : ServeEntry) : Header :=
  { s.header with dest := e.source, ring := ringField e.ring, epoch := (s.ring e.ring).epoch, tag := e.tag,
                  useCount := e.useCount }

/-- A reply is placed at the tail of the reply transmit queue (R145, R165). -/
def State.placeReply (s : State) (f : Frame) : State := { s with liu := { s.liu with replies := s.liu.replies ++ [f] } }

/-- A REFUSE is placed. -/
def State.placeRefuse (s : State) (e : ServeEntry) (why : Refused) : State :=
  s.placeReply (headerFrame .refuse { s.replyHeader e with reason := why.code })

/-- The slot count code of a WELCOME (Table 10-4): the count is 16 × 2^code. -/
def slotCountCode (count : BitVec 10) : Byte :=
  if count = 16 then 0 else if count = 32 then 1 else if count = 64 then 2 else if count = 128 then 3
  else if count = 256 then 4 else 5

/-- A WELCOME with a start sequence is placed (R129, R130). -/
def State.placeWelcome (s : State) (e : ServeEntry) (start : Seq) : State :=
  let g := s.ring e.ring
  s.placeReply { kind := .welcome, header := { s.replyHeader e with seq := start },
                 tail := { g.tailBlock with slotCode := slotCountCode g.slotCount }, body := [] }

/-! ### JOIN (R127 to R130) -/

/-- The ring record at the admission of a member (R129, steps 1 to 4). -/
def Ring.enrol (g : Ring) (e : ServeEntry) (newest : Bool) (silence : Nat) : Ring :=
  let mark := if newest then g.tail else g.reclaim
  let m : Member := { station := e.source, incarnation := e.incarnation, mark := mark, silence := some silence }
  (({ g with roster := insertMember m g.roster } : Ring).raiseCommit mark).recompute

/-- The admission of a new member (R129). -/
def State.enrol (s : State) (e : ServeEntry) (newest : Bool) : State :=
  let start := if newest then (s.ring e.ring).tail else (s.ring e.ring).reclaim
  let s := s.modRing e.ring fun g => g.enrol e newest s.config.silenceLimit
  let s := s.postRing .memberJoined e.ring 0 (e.source.setWidth 32)
  s.placeWelcome e start

/-- A re-join (R130): the entry is kept, its silence timer restarted. -/
def State.rejoin (s : State) (e : ServeEntry) : State :=
  let start := match (s.ring e.ring).member e.source with
    | some m => m.mark
    | none => 0
  (s.restartSilence e.ring e.source).placeWelcome e start

/-- The cases of R128, in order. -/
def State.judgeJoin (s : State) (e : ServeEntry) (newest member : Bool) : State :=
  let g := s.ring e.ring
  if g.state = .closed then s.placeRefuse e .closed
  else if member then s.rejoin e
  else if g.state = .withdrawing then s.placeRefuse e .closed
  else if g.roster.length < Config.rosterPlaces then s.enrol e newest
  else s.placeRefuse e .rosterFull

/-! ### FETCH and PULL (R146 to R151) -/

/-- Steps 2 to 4 of R146: the refusal that a FETCH or PULL meets before it is judged by its kind. -/
def State.gateRefusal (s : State) (e : ServeEntry) (member : Bool) : Option Refused :=
  if (s.ring e.ring).state = .closed then some .closed
  else if e.epoch ≠ (s.ring e.ring).epoch then some .staleEpoch
  else if !member then some .notMember
  else none

/-- The served count of a FETCH (R147): none when first lies below the reclaim point. -/
def Ring.servedCount (g : Ring) (first : Seq) (count : Nat) : Option Nat :=
  let d := (first - g.reclaim).toNat
  let p := (g.tail - g.reclaim).toNat
  if 2147483648 ≤ d then none
  else if d < p then some (min count (p - d))
  else some 0

/-- The body of a LISTING: the images of the served sequences, as their slots hold them at the serve (R148). -/
def State.listingBody (s : State) (g : Ring) (first : Seq) (served : Nat) : List Byte :=
  (List.range served).flatMap fun k =>
    let q := first + BitVec.ofNat 32 k
    (imageOfSlot q (s.slotAt g q)).bytes

/-- A LISTING is placed, the commit point raised past what it serves, and the silence timer restarted (R148, R149). -/
def State.listing (s : State) (e : ServeEntry) (first : Seq) (served : Nat) : State :=
  let g := s.ring e.ring
  let f : Frame := { kind := .listing, header := { s.replyHeader e with seq := first, count := BitVec.ofNat 5 served },
                     tail := g.tailBlock, body := s.listingBody g first served }
  let s := if served = 0 then s else s.modRing e.ring fun g => g.raiseCommit (first + BitVec.ofNat 32 served)
  (s.restartSilence e.ring e.source).placeReply f

/-- A FETCH past the gate (R147). -/
def State.judgeFetch (s : State) (e : ServeEntry) (first : Seq) (count : Nat) : State :=
  match (s.ring e.ring).servedCount first count with
  | none => s.placeRefuse e .reclaimed
  | some served => s.listing e first served

/-- The checks of R150 on a PULL, against the slot as read at the serve. -/
def State.pullOk (s : State) (g : Ring) (q : Seq) (chunk length : Nat) : Bool :=
  let d := s.slotAt g q
  inRange g.reclaim g.commit q && decide (chunk * 256 + length ≤ d.length.toNat) &&
  insideMemory (d.offset.toNat + chunk * 256) length

/-- A PAYLOAD is placed with the bytes that memory holds at the serve, and the silence timer restarted (R151). -/
def State.payload (s : State) (e : ServeEntry) (q : Seq) (chunk length : Nat) : State :=
  let d := s.slotAt (s.ring e.ring) q
  let f : Frame :=
    { kind := .payload,
      header := { s.replyHeader e with seq := q, count := BitVec.ofNat 5 chunk, length := BitVec.ofNat 9 length },
      tail := zeroTail, body := s.bytesAt (addr (d.offset.toNat + chunk * 256)) length }
  (s.restartSilence e.ring e.source).placeReply f

/-- A PULL past the gate (R150). -/
def State.judgePull (s : State) (e : ServeEntry) (q : Seq) (chunk length : Nat) : State :=
  if s.pullOk (s.ring e.ring) q chunk length then s.payload e q chunk length else s.placeRefuse e .outOfRange

/-- A request after the comparison of R127, by its kind. -/
def State.judge (s : State) (e : ServeEntry) (member : Bool) : State :=
  match e.body with
  | .join newest => s.judgeJoin e newest member
  | .fetch first count =>
    match s.gateRefusal e member with
    | some why => s.placeRefuse e why
    | none => s.judgeFetch e first count
  | .pull q chunk length =>
    match s.gateRefusal e member with
    | some why => s.placeRefuse e why
    | none => s.judgePull e q chunk length

/-! ### The serve (R145) -/

/-- A serve of the oldest entry: it leaves the Serve Queue, is compared with the roster, and judged. -/
def State.serve (s : State) (e : ServeEntry) : State :=
  let s := { s with pub := { s.pub with serveQueue := s.pub.serveQueue.drop 1 } }
  let r := s.compareRoster e.ring e.source e.incarnation
  r.1.judge e r.2

/-- The entry of the next serve (R145): none when the Serve Queue is empty or the reply transmit queue holds 8. -/
def State.nextServe (s : State) : Option ServeEntry :=
  if s.liu.replies.length < Config.replyPlaces then s.pub.serveQueue.head? else none

/-- SERVE_JOIN (R127 to R130, R145): acts when the next serve is of a JOIN (log 7). -/
def execServeJoin (s : State) : Result :=
  match s.nextServe with
  | none => .next s
  | some e =>
    match e.body with
    | .join _ => .next (s.serve e)
    | _ => .next s

/-- SERVE_FETCH (R145 to R149): acts when the next serve is of a FETCH (log 7). -/
def execServeFetch (s : State) : Result :=
  match s.nextServe with
  | none => .next s
  | some e =>
    match e.body with
    | .fetch _ _ => .next (s.serve e)
    | _ => .next s

/-- SERVE_PULL (R145, R146, R150, R151): acts when the next serve is of a PULL (log 7). -/
def execServePull (s : State) : Result :=
  match s.nextServe with
  | none => .next s
  | some e =>
    match e.body with
    | .pull _ _ _ => .next (s.serve e)
    | _ => .next s

end Sys2Proof.Machine
end

