-- ==== Sys2Proof/Machine/Pull.lean ====
section
/-! DEFINITION. The turns of the pull engine (R88, R89, R91), and the block grant round, the line wait round and a delivery as
rows of their own. -/
namespace Sys2Proof.Machine

/-! ### Turns (R88) -/

/-- The engine may attempt a pull start for the subscription (R88, second case). -/
def Sub.mayStart (b : Sub) : Bool :=
  b.issue.isNone && b.blockWait.isNone && !b.pullWait && !(b.state == .finishing && b.pp == b.kt)

/-- The subscription is ready for a turn (R88). -/
def Sub.ready (b : Sub) : Bool := b.consuming && decide (b.pullsOut < b.window) && (b.issue.isSome || b.mayStart)

/-- The subscription of the next turn: the first ready one after the pull-grant pointer (R88). -/
def State.nextTurn (s : State) : Option SubIdx := (after s.pdu.pullGrantPtr).find? fun i => (s.sub i).ready

/-- A turn moves the pull-grant pointer to its subscription (R88). -/
def State.takeTurn (s : State) (i : SubIdx) : State := { s with pdu := { s.pdu with pullGrantPtr := i } }

/-! ### A pull start (R89) -/

/-- The start of a descriptor that was a HIT, or the wait for its blocks (R89). -/
def State.startOrWait (s : State) (i : SubIdx) (im : Image) : State :=
  let c := chunkCount im.length.toNat
  if c ≤ s.freeBlocks then (s.allocate i im.seq c).startPull i im (s.allocated i im.seq c)
  else s.modSub i fun b => { b with blockWait := some (im.seq, c) }

/-- A turn that attempts a pull start. A descriptor of length 0 is COMPLETE at once, and may be delivered (R96). -/
def State.pullStartTurn (s : State) (i : SubIdx) : State :=
  match s.descriptorAnswer i with
  | .hit im => deliverAll (s.startOrWait i im)
  | _ => s.noteAnswer i

/-- PULL_START (R88, R89): acts when the next turn attempts a start (log 7). -/
def execPullStart (s : State) : Result :=
  match s.nextTurn with
  | none => .next s
  | some i => if (s.sub i).issue.isNone then .next ((s.takeTurn i).pullStartTurn i) else .next s

/-! ### A chunk (R91) -/

/-- The first descriptor with chunks unissued, in sequence order, and its next chunk. -/
def nextIssue (pulls : List PullRecord) : Option (Seq × Nat) :=
  (pulls.find? fun p => decide (p.issued < chunkCount p.image.length.toNat)).map fun p => (p.image.seq, p.issued)

/-- The record after chunk `k` of sequence `q` is issued (R91, steps 2 and 3). -/
def Sub.issueChunk (b : Sub) (q : Seq) (k : Nat) : Sub :=
  let pulls := b.pulls.map fun p => if p.image.seq == q then { p with issued := k + 1 } else p
  { b with pulls := pulls, pullsOut := b.pullsOut + 1, issue := nextIssue pulls }

/-- A turn that issues the chunk at issue position (q, k): the PULL names the block of `q` with index `k`. -/
def State.chunkTurn (s : State) (i : SubIdx) (q : Seq) (k : Nat) : State :=
  match (s.sub i).pullRecord q with
  | none => s
  | some p =>
    (s.modSub i fun b => b.issueChunk q k).claim i
      (.pull q k (chunkLength p.image.length.toNat k) (p.blocks.getD k 0))

/-- CHUNK_ISSUE (R88, R91): acts when the next turn issues a chunk (log 7). -/
def execChunkIssue (s : State) : Result :=
  match s.nextTurn with
  | none => .next s
  | some i =>
    match (s.sub i).issue with
    | none => .next s
    | some (q, k) => .next ((s.takeTurn i).chunkTurn i q k)

/-! ### Rounds and deliveries as rows of their own (logs 7 and 9) -/

/-- BLOCK_GRANT_ROUND (R90); a start of a descriptor of length 0 may be delivered (R96). -/
def execBlockGrantRound (s : State) : Result := .next (deliverAll (Sys2Proof.Machine.blockGrantRound s))

/-- LINE_WAIT_ROUND (R66). -/
def execLineWaitRound (s : State) : Result := .next (Sys2Proof.Machine.lineWaitRound s)

/-- DELIVERY (R96): one delivery, where the queue has room and a subscription is deliverable. -/
def execDelivery (s : State) : Result := .next ((deliverOnce s).getD s)

end Sys2Proof.Machine
end

