-- ==== Sys2Proof/Machine/Wire.lean ====
section
/-! DEFINITION. Frames as bytes on the medium (section 10.1, R191, R192): how a transmitted frame is laid out, and which
commands the bytes of an arriving frame spell (log 19). -/
namespace Sys2Proof.Machine

/-! ### The frame check (R191; the reflected register form is log 14) -/

/-- One bit of the check register. -/
def crcBit (c : Word) : Word := if c.getLsbD 0 then (c >>> 1) ^^^ 0x82F63B78 else c >>> 1

/-- One byte, least significant bit first. -/
def crcByte (c : Word) (b : Byte) : Word :=
  crcBit (crcBit (crcBit (crcBit (crcBit (crcBit (crcBit (crcBit (c ^^^ b.setWidth 32))))))))

/-- The frame check over bytes: preset to ones, inverted at the end. -/
def frameCheck (bytes : List Byte) : Word := ~~~(bytes.foldl crcByte 0xFFFFFFFF)

/-! ### Layout (Tables 10-1, 10-2, 10-4) -/

/-- The 16 bytes of a header (Table 10-2). -/
def headerBytes (k : FrameKind) (h : Header) : List Byte :=
  halfBytes (0#1 ++ BitVec.ofBool h.broadcast ++ h.dest ++ h.source ++ kindCode k : BitVec (1 + 1 + 5 + 5 + 4)) ++
  halfBytes h.incarnation ++ halfBytes h.epoch ++
  halfBytes (0#3 ++ h.useCount ++ h.tag ++ h.ring : BitVec (3 + 4 + 6 + 3)) ++ wordBytes h.seq ++
  wordBytes (0#13 ++ BitVec.ofBool h.newest ++ h.reason ++ h.length ++ h.count : BitVec (13 + 1 + 4 + 9 + 5))

/-- The 8 bytes of a tail block (Table 10-4). -/
def tailBytes (t : TailBlock) : List Byte :=
  wordBytes t.tail ++ halfBytes t.revision ++ [t.state.setWidth 8, t.slotCode]

/-- The bytes from the key to the last byte of the body (Table 10-1). -/
def contentBytes (f : Frame) : List Byte :=
  arbitrationKey f.kind f.header.source :: (headerBytes f.kind f.header ++
    (if kindHasTail f.kind then tailBytes f.tail else []) ++ f.body)

/-- A whole frame, its frame check stored little-endian (R191). -/
def frameBytes (f : Frame) : List Byte := contentBytes f ++ wordBytes (frameCheck (contentBytes f))

/-- The bytes that the station has on the medium. -/
def State.onMedium (s : State) : Option (List Byte) := s.liu.transmitting.map frameBytes

/-! ### Reading a frame -/

/-- The kind of a kind code (Table 10-3). -/
def kindOfCode (c : BitVec 4) : Option FrameKind :=
  match c.toNat with
  | 1 => some .hello | 2 => some .announce | 3 => some .join | 4 => some .welcome | 5 => some .refuse | 6 => some .leave
  | 7 => some .evict | 8 => some .release | 9 => some .fetch | 10 => some .listing | 11 => some .pull
  | 12 => some .payload | _ => none

/-- The header of its six fields of Table 10-2: bytes 0..1, 2..3, 4..5, 6..7, 8..11 and 12..15. -/
def headerOf (w0 w1 w2 w3 : Half) (w4 w5 : Word) : Header :=
  { source := w0.extractLsb' 4 5, dest := w0.extractLsb' 9 5, broadcast := w0.getLsbD 14, incarnation := w1, epoch := w2,
    ring := w3.extractLsb' 0 3, tag := w3.extractLsb' 3 6, useCount := w3.extractLsb' 9 4, seq := w4,
    count := w5.extractLsb' 0 5, length := w5.extractLsb' 5 9, reason := w5.extractLsb' 14 4, newest := w5.getLsbD 18 }

/-- The tail block and the body that follow a header; too few bytes for the tail block hold none. -/
def splitTail (k : FrameKind) (rest : List Byte) : Option (TailBlock × List Byte) :=
  if kindHasTail k then
    match rest with
    | b0 :: b1 :: b2 :: b3 :: b4 :: b5 :: b6 :: b7 :: body =>
      some ({ tail := word b0 b1 b2 b3, revision := half b4 b5, state := b6.extractLsb' 0 2, slotCode := b7 }, body)
    | _ => none
  else some (zeroTail, rest)

/-- The kind and the arrival that the bytes before the frame check spell. -/
def readContent (intact : Bool) : List Byte → Option (FrameKind × Arrival)
  | key :: b0 :: b1 :: b2 :: b3 :: b4 :: b5 :: b6 :: b7 :: b8 :: b9 :: b10 :: b11 :: b12 :: b13 :: b14 :: b15 :: rest =>
    match kindOfCode ((half b0 b1).extractLsb' 0 4) with
    | none => none
    | some k =>
      match splitTail k rest with
      | none => none
      | some (t, body) =>
        some (k, { key := key,
                   header := headerOf (half b0 b1) (half b2 b3) (half b4 b5) (half b6 b7) (word b8 b9 b10 b11)
                     (word b12 b13 b14 b15),
                   tail := t, body := body, intact := intact })
  | _ => none

/-- A frame from its bytes; its check passes when the last four bytes are the check of the others. -/
def readFrame (bytes : List Byte) : Option (FrameKind × Arrival) :=
  let content := bytes.take (bytes.length - 4)
  readContent (bytes.drop (bytes.length - 4) == wordBytes (frameCheck content)) content

/-- The commands of a frame's arrival: its row; for a HELLO the steps of SBM and PUB, whose order is the queue's (log 21).
Bytes that spell no frame of a defined kind are discarded by the filter (R194), so they spell no command. -/
def frameCommands (bytes : List Byte) : List Instr :=
  match readFrame bytes with
  | none => []
  | some (k, a) =>
    match k with
    | .hello => [.helloFrame a, .helloRosterRemoval a]
    | .announce => [.announceFrame a]
    | .join => [.requestFrame .join a]
    | .welcome => [.welcomeFrame a]
    | .refuse => [.refuseFrame a]
    | .leave => [.leaveFrame a]
    | .evict => [.evictFrame a]
    | .release => [.releaseFrame a]
    | .fetch => [.requestFrame .fetch a]
    | .listing => [.listingFrame a]
    | .pull => [.requestFrame .pull a]
    | .payload => [.payloadFrame a]

/-- A frame's bytes arrive at the station. -/
def State.receive (s : State) (bytes : List Byte) : State := { s with pending := s.pending ++ frameCommands bytes }

end Sys2Proof.Machine
end

