-- ==== Sys2Proof/Machine/Clock.lean ====
section
/-! DEFINITION. One time unit (10 µs; 00_scope.md, Conventions) of the timers, which passes when no command waits (log 6). -/
namespace Sys2Proof.Machine

/-- A timer counts one time unit down; it stays at 0 until its expiry is taken. -/
def Timer.tick : Timer → Timer
  | none => none
  | some n => some (n - 1)

/-- The timers of a ring: drain, and the silence timer of each member. -/
def Ring.tick (r : Ring) : Ring :=
  { r with drain := Timer.tick r.drain, roster := r.roster.map fun m => { m with silence := Timer.tick m.silence } }

/-- The timers of a subscription. -/
def Sub.tick (b : Sub) : Sub := { b with poll := Timer.tick b.poll, keepalive := Timer.tick b.keepalive }

/-- The deadline timer of a tag. -/
def Tag.tick (t : Tag) : Tag := { t with bound := t.bound.map fun b => { b with deadline := Timer.tick b.deadline } }

/-- Every running timer counts one time unit. -/
def State.countDown (s : State) : State :=
  { s with pub := { s.pub with rings := mapTable Ring.tick s.pub.rings }, subs := mapTable Sub.tick s.subs,
           rqt := { s.rqt with tags := mapTable Tag.tick s.rqt.tags } }

/-- The deadline of a tag has run out. -/
def Tag.due (t : Tag) : Bool :=
  match t.bound with
  | some b => Timer.due b.deadline
  | none => false

/-- The expiries of the silence timers of one ring, in station order. -/
def State.silenceExpiries (s : State) (r : RingIdx) : List Instr :=
  ((s.ring r).roster.filter fun m => Timer.due m.silence).map fun m => .silenceExpiry r m.station

/-- The expiries that are due, by timer kind and then by number (log 6). -/
def State.expiries (s : State) : List Instr :=
  ((List.finRange 64).filter fun t => (s.tag t).due).map Instr.deadlineExpiry ++
  ((List.finRange 24).filter fun i => Timer.due (s.sub i).poll).map Instr.pollExpiry ++
  ((List.finRange 24).filter fun i => Timer.due (s.sub i).keepalive).map Instr.keepaliveExpiry ++
  (List.finRange 8).flatMap s.silenceExpiries ++
  ((List.finRange 8).filter fun r => Timer.due (s.ring r).drain).map Instr.drainExpiry

/-- One time unit passes: in RUNNING the timers count, and the expiries that fall due join the queue; in RESET and CONFIG
the timers are stopped (Table 9-1). -/
def tick (s : State) : State :=
  if s.running then { s.countDown with pending := s.pending ++ s.countDown.expiries } else s

end Sys2Proof.Machine
end

