-- ==== Sys2Proof/Machine/Dispatch.lean ====
section
/-! DEFINITION. One arm per command. -/
namespace Sys2Proof.Machine

def exec (i : Instr) (s : State) : Host.Outcome State Fault Refusal :=
  match i with
  | .reset powerOn => Sys2Proof.Machine.execReset powerOn s
  | .resetRelease st br => Sys2Proof.Machine.execResetRelease st br s
  | .start => Sys2Proof.Machine.execStart s
  | .startCompletion => Sys2Proof.Machine.execStartCompletion s
  | .openRing ring base count retain => Sys2Proof.Machine.execOpen ring base count retain s
  | .advance ring n => Sys2Proof.Machine.execAdvance ring n s
  | .advanceCompletion => Sys2Proof.Machine.execAdvanceCompletion s
  | .retract ring t => Sys2Proof.Machine.execRetract ring t s
  | .withdraw ring drain => Sys2Proof.Machine.execWithdraw ring drain s
  | .ringStatus ring view => Sys2Proof.Machine.execRingStatus ring view s
  | .join producer ring policy depthWindow => Sys2Proof.Machine.execJoin producer ring policy depthWindow s
  | .leave sub => Sys2Proof.Machine.execLeave sub s
  | .flush sub => Sys2Proof.Machine.execFlush sub s
  | .flushAll => Sys2Proof.Machine.execFlushAll s
  | .dismiss sub => Sys2Proof.Machine.execDismiss sub s
  | .subStatus sub view => Sys2Proof.Machine.execSubStatus sub view s
  | .accept k => Sys2Proof.Machine.execAccept k s
  | .retire sub seq => Sys2Proof.Machine.execRetire sub seq s
  | .registerWrite alsoRead la ld => Sys2Proof.Machine.execRegisterWrite alsoRead la ld s
  | .ntc0Read alsoWrite => Sys2Proof.Machine.execNtc0Read alsoWrite s
  | .localMemoryAccess lrd lwr la ld => Sys2Proof.Machine.execLocalMemoryAccess lrd lwr la ld s
  | .arbitration others => Sys2Proof.Machine.execArbitration others s
  | .tagGrant => Sys2Proof.Machine.execTagGrant s
  | .retryLineMove => Sys2Proof.Machine.execRetryLineMove s
  | .deadlineExpiry tag => Sys2Proof.Machine.execDeadlineExpiry tag s
  | .keepaliveExpiry sub => Sys2Proof.Machine.execKeepaliveExpiry sub s
  | .pollExpiry sub => Sys2Proof.Machine.execPollExpiry sub s
  | .silenceExpiry ring member => Sys2Proof.Machine.execSilenceExpiry ring member s
  | .drainExpiry ring => Sys2Proof.Machine.execDrainExpiry ring s
  | .helloFrame a => Sys2Proof.Machine.execHelloFrame a s
  | .helloRosterRemoval a => Sys2Proof.Machine.execHelloRosterRemoval a s
  | .announceFrame a => Sys2Proof.Machine.execAnnounceFrame a s
  | .requestFrame kind a => Sys2Proof.Machine.execRequestFrame kind a s
  | .leaveFrame a => Sys2Proof.Machine.execLeaveFrame a s
  | .releaseFrame a => Sys2Proof.Machine.execReleaseFrame a s
  | .evictFrame a => Sys2Proof.Machine.execEvictFrame a s
  | .welcomeFrame a => Sys2Proof.Machine.execWelcomeFrame a s
  | .refuseFrame a => Sys2Proof.Machine.execRefuseFrame a s
  | .listingFrame a => Sys2Proof.Machine.execListingFrame a s
  | .payloadFrame a => Sys2Proof.Machine.execPayloadFrame a s
  | .serveJoin => Sys2Proof.Machine.execServeJoin s
  | .serveFetch => Sys2Proof.Machine.execServeFetch s
  | .servePull => Sys2Proof.Machine.execServePull s
  | .pullStart => Sys2Proof.Machine.execPullStart s
  | .chunkIssue => Sys2Proof.Machine.execChunkIssue s
  | .blockGrantRound => Sys2Proof.Machine.execBlockGrantRound s
  | .lineWaitRound => Sys2Proof.Machine.execLineWaitRound s
  | .delivery => Sys2Proof.Machine.execDelivery s
  | .undefinedCommandCode code => Sys2Proof.Machine.execUndefinedCommandCode code s

end Sys2Proof.Machine
end

