-- ==== Sys2Proof/Safety.lean ====
section
/-! DEFINITION. What every state of a run satisfies: the bounds and orders that the manual's rules promise, as predicates on
one state. -/
namespace Sys2Proof.Machine

/-- Station memory keeps its canonical form (offsets of station memory, strictly rising, no default byte listed). -/
def MemoryCanonical (s : State) : Prop := s.memory.wf = true

/-- No queue is longer than it has places: notices (R183), one-off FIFO (R162), replies (R153), requests (R113), Serve Queue
(R144). -/
def QueuesBounded (s : State) : Prop :=
  s.lpc.notices.length ≤ Config.noticePlaces ∧ s.liu.oneOff.length ≤ Config.oneOffPlaces ∧
  s.liu.replies.length ≤ Config.replyPlaces ∧ s.rqt.queue.length ≤ Config.requestPlaces ∧
  s.pub.serveQueue.length ≤ Config.servePlaces

/-- The notices-lost flag is set only while the notice queue is full (R186), and exactly while something is counted as
dropped. -/
def NoticesCoherent (s : State) : Prop :=
  s.lpc.notices.length ≤ Config.noticePlaces ∧ (s.lpc.lost = true → s.lpc.notices.length = Config.noticePlaces) ∧
  (s.lpc.lost = true ↔ s.lpc.dropped ≠ 0)

/-- A roster in station order, so that no station has two entries. -/
def rosterOrdered : List Member → Prop
  | [] => True
  | m :: ms => (∀ n ∈ ms, m.station.toNat < n.station.toNat) ∧ rosterOrdered ms

/-- What holds of a ring record: at most 6 members, by station number, none twice (R125); a CLOSED ring has no member, no drain
timer and no announce pending (R3); a drain timer runs only in WITHDRAWING (Table 1-1). -/
def ringCoherent (g : Ring) : Prop :=
  g.roster.length ≤ Config.rosterPlaces ∧ rosterOrdered g.roster ∧
  (g.state = .closed → g.roster = [] ∧ g.drain = none ∧ g.announcePending = false) ∧
  (g.drain.isSome = true → g.state = .withdrawing)

/-- Every ring record is coherent, and the ring of an ADVANCE that validates stays OPEN (R13). -/
def RingsCoherent (s : State) : Prop :=
  (∀ r : RingIdx, ringCoherent (s.ring r)) ∧
  ∀ run, s.lpc.slot = .advancing run → (s.ring run.ring).state = .opened

/-- A ring's points are in order (R17): every release mark lies in [reclaim point, commit point], the commit point lies at or
below the tail, and no more is published than the ring has slots. -/
def pointsOrdered (g : Ring) : Prop :=
  g.slotCount.toNat ≤ 512 ∧ (g.tail - g.reclaim).toNat ≤ g.slotCount.toNat ∧
  (g.commit - g.reclaim).toNat ≤ (g.tail - g.reclaim).toNat ∧
  ∀ m ∈ g.roster, (m.mark - g.reclaim).toNat ≤ (g.commit - g.reclaim).toNat

/-- The points of every ring that is not CLOSED are in order (R17), and the room that an ADVANCE found stays while it
validates (R13). -/
def RingPointsOrdered (s : State) : Prop :=
  (∀ r : RingIdx, (s.ring r).state ≠ .closed → pointsOrdered (s.ring r)) ∧
  ∀ run, s.lpc.slot = .advancing run →
    ((s.ring run.ring).tail - (s.ring run.ring).reclaim).toNat + run.length ≤ (s.ring run.ring).slotCount.toNat

/-- The Delivery Queue's indices agree with its fill, and the fill with its capacity (R98). -/
def DeliveryQueueCoherent (s : State) : Prop :=
  s.pdu.fill ≤ s.pdu.capacity ∧
  (0 < s.pdu.capacity →
    s.pdu.readIndex < s.pdu.capacity ∧ s.pdu.writeIndex = (s.pdu.readIndex + s.pdu.fill) % s.pdu.capacity)

/-- The pool and the Delivery Queue have the sizes that the frozen configuration gives them (R177). -/
def PoolSized (s : State) : Prop :=
  s.pdu.blocks.length = s.config.poolBlocks ∧ s.pdu.capacity = s.config.queueCapacity

/-- No subscription has more than 64 records delivered and unretired (R96); so RM is at or below DP (R26). -/
def UnretiredBounded (s : State) : Prop :=
  ∀ i : SubIdx, ((s.sub i).dp - (s.sub i).rm).toNat ≤ Config.unretiredLimit

/-- Every bound tag belongs to a subscription in JOINING, ACTIVE, FINISHING or LEAVING, and only such a subscription has a
claim waiting (R110). -/
def RequestsOwned (s : State) : Prop :=
  (∀ t : TagIdx, ∀ b, (s.tag t).bound = some b → (s.sub b.sub).state.live = true) ∧
  ∀ i : SubIdx, (s.sub i).claims ≠ [] → (s.sub i).state.live = true

/-- Outside RUNNING every unit but LPC and SMC holds its reset values, no notice is queued and nothing is configured (R2, R24,
R50, R109, R169, R170, R174); in RESET the registers hold their reset values too (R173). -/
def QuietUntilStart (s : State) : Prop :=
  (s.lpc.state ≠ .running →
    s.liu = .reset ∧ s.pub = .reset ∧ s.subs = Vector.replicate 24 (Sub.fresh 0) ∧ s.dpc = .reset ∧ s.rqt = .reset ∧
    s.pdu = .reset ∧ s.lpc.config = .absent ∧ s.lpc.notices = [] ∧ s.lpc.lost = false ∧
    ∀ run, s.lpc.slot ≠ .advancing run) ∧
  (s.lpc.state = .reset → s.lpc = .reset)

end Sys2Proof.Machine
end

