-- ==== Sys2Proof/Certificates/Slice0/Obligations.lean ====
section
/-! DEFINITION. The statements about this model that the provers prove. -/
open Sys2Proof Sys2Proof.Machine

/-! ### Vocabulary of the statements -/

/-- RUNNING, with BUSY at 0. -/
def Sys2Proof.Machine.State.ready (s : State) : Prop := s.lpc.state = .running ∧ s.lpc.slot = .idle

/-- The registers after the writes of a command row with one argument word. -/
def Sys2Proof.Machine.State.args1 (s : State) (code : Byte) (w0 : Word) : State :=
  { s with lpc := { s.lpc with cmd := code, arg0 := w0 } }

/-- The registers after the writes of a command row with two argument words. -/
def Sys2Proof.Machine.State.args2 (s : State) (code : Byte) (w0 w1 : Word) : State :=
  { s with lpc := { s.lpc with cmd := code, arg0 := w0, arg1 := w1 } }

/-- The registers after the writes of a command row with four argument words. -/
def Sys2Proof.Machine.State.args4 (s : State) (code : Byte) (w0 w1 w2 w3 : Word) : State :=
  { s with lpc := { s.lpc with cmd := code, arg0 := w0, arg1 := w1, arg2 := w2, arg3 := w3 } }

/-- The rows that are commands of Table 9-4, each with its code; UNDEFINED_COMMAND_CODE with the code it holds. -/
def Sys2Proof.Instr.commandCode : Instr → Option Byte
  | .reset _ | .resetRelease _ _ => none
  | .start => some 1
  | .startCompletion => none
  | .openRing _ _ _ _ => some 2
  | .advance _ _ => some 3
  | .advanceCompletion => none
  | .retract _ _ => some 4
  | .withdraw _ _ => some 5
  | .ringStatus _ _ => some 6
  | .join _ _ _ _ => some 7
  | .leave _ => some 8
  | .flush _ => some 9
  | .flushAll => some 9
  | .dismiss _ => some 10
  | .subStatus _ _ => some 11
  | .accept _ => some 12
  | .retire _ _ => some 13
  | .registerWrite _ _ _ | .ntc0Read _ | .localMemoryAccess _ _ _ _ | .arbitration _ | .tagGrant | .retryLineMove => none
  | .deadlineExpiry _ | .keepaliveExpiry _ | .pollExpiry _ | .silenceExpiry _ _ | .drainExpiry _ => none
  | .helloFrame _ | .helloRosterRemoval _ | .announceFrame _ | .requestFrame _ _ | .leaveFrame _ | .releaseFrame _ => none
  | .evictFrame _ | .welcomeFrame _ | .refuseFrame _ | .listingFrame _ | .payloadFrame _ => none
  | .serveJoin | .serveFetch | .servePull | .pullStart | .chunkIssue | .blockGrantRound | .lineWaitRound => none
  | .delivery => none
  | .undefinedCommandCode c => some c

/-- The state but for the command code and the argument registers. -/
def Sys2Proof.Machine.sameButCommandRegisters (s t : State) : Prop :=
  t = { s with lpc := { s.lpc with cmd := t.lpc.cmd, arg0 := t.lpc.arg0, arg1 := t.lpc.arg1, arg2 := t.lpc.arg2,
                                   arg3 := t.lpc.arg3 } }

/-! ### Steps and totality -/

/-- A step runs the command at the front of the queue on the rest of the queue. -/
def Sys2Proof.Part.StepRunsFront : Prop :=
  ∀ (c : Instr) (rest : List Instr) (s : State),
    step { s with pending := c :: rest } = exec c { s with pending := rest }

/-- The commands of the expiries that are due in a state: those of its timers that run and stand at 0. -/
def Sys2Proof.Machine.State.expiryDue (s : State) (c : Instr) : Prop :=
  (∃ g b, c = .deadlineExpiry g ∧ (s.tag g).bound = some b ∧ b.deadline = some 0) ∨
  (∃ i, c = .pollExpiry i ∧ (s.sub i).poll = some 0) ∨ (∃ i, c = .keepaliveExpiry i ∧ (s.sub i).keepalive = some 0) ∨
  (∃ r m, c = .silenceExpiry r m.station ∧ m ∈ (s.ring r).roster ∧ m.silence = some 0) ∨
  (∃ r, c = .drainExpiry r ∧ (s.ring r).drain = some 0)

/-- With an empty queue a step lets one time unit pass: in RUNNING every running timer counts down one unit, the expiries then
due join the queue, and nothing else changes; outside RUNNING nothing changes. When time passes is the model's choice
(log 6). -/
def Sys2Proof.Part.IdleStepIsTimeUnit : Prop :=
  ∀ s : State, s.pending = [] →
    (s.lpc.state ≠ .running → step s = .next s) ∧
    (s.lpc.state = .running → ∃ t, step s = .next t ∧
      (∀ r, t.ring r = { s.ring r with
        drain := (s.ring r).drain.map (· - 1),
        roster := (s.ring r).roster.map fun m => { m with silence := m.silence.map (· - 1) } }) ∧
      (∀ i, t.sub i = { s.sub i with poll := (s.sub i).poll.map (· - 1), keepalive := (s.sub i).keepalive.map (· - 1) }) ∧
      (∀ g, t.tag g = { s.tag g with
        bound := (s.tag g).bound.map fun b => { b with deadline := b.deadline.map (· - 1) } }) ∧
      (∀ c, c ∈ t.pending ↔ t.expiryDue c) ∧
      t = { s with pub := { s.pub with rings := t.pub.rings }, subs := t.subs, rqt := { s.rqt with tags := t.rqt.tags },
                   pending := t.pending })

/-- What a step does: the front command, or with an empty queue one time unit (the model's choice, log 6). -/
def Obligations.StepRunsFrontCommand : Prop := Part.StepRunsFront ∧ Part.IdleStepIsTimeUnit

/-- Every command of every row answers a next state, in every state: the block never stops; and it leaves the queue of
waiting commands as it is. -/
def Obligations.EveryCommandAnswersNext : Prop :=
  ∀ (c : Instr) (s : State), ∃ t, exec c s = .next t ∧ t.pending = s.pending

/-! ### The command slot (R173, R181, R182) -/

/-- In RESET a command row changes nothing: its writes and its GO are ignored. -/
def Sys2Proof.Part.CommandIgnoredInReset : Prop :=
  ∀ (c : Instr) (code : Byte) (s : State), c.commandCode = some code → s.lpc.state = .reset → exec c s = .next s

/-- While BUSY is 1 a GO is ignored: only CMD and the argument registers, which are plain storage, take new values. -/
def Sys2Proof.Part.GoIgnoredWhileBusy : Prop :=
  ∀ (c : Instr) (code : Byte) (s : State), c.commandCode = some code → s.lpc.state ≠ .reset → s.busy = true →
    ∃ t, exec c s = .next t ∧ sameButCommandRegisters s t ∧ t.lpc.cmd = code

/-- When a GO is ignored (a command row is its writes of the arguments, CMD and GO: log 8). -/
def Obligations.GoIgnoredInResetAndBusy : Prop := Part.CommandIgnoredInReset ∧ Part.GoIgnoredWhileBusy

/-- In CONFIG every defined command but START is refused with STATE, and nothing but the command slot's registers changes. -/
def Sys2Proof.Part.CommandRefusedInConfig : Prop :=
  ∀ (c : Instr) (code : Byte) (s : State), c.commandCode = some code → definedCode code = true → code ≠ 1 →
    s.lpc.state = .config → s.lpc.slot = .idle →
    ∃ u, sameButCommandRegisters s u ∧ u.lpc.cmd = code ∧ exec c s = .next (u.finish .state 0 0)

/-- An undefined command code completes with BAD_ARG and both result words 0. -/
def Sys2Proof.Part.UndefinedCodeGivesBadArg : Prop :=
  ∀ (code : Byte) (s : State), definedCode code = false → s.lpc.state ≠ .reset → s.lpc.slot = .idle →
    exec (.undefinedCommandCode code) s = .next ((s.writeCmd code).finish .badArg 0 0)

/-- The commands of CONFIG, and the undefined codes. -/
def Obligations.ConfigAndUndefinedCodes : Prop := Part.CommandRefusedInConfig ∧ Part.UndefinedCodeGivesBadArg

/-! ### Reset and START -/

/-- RESET gives every unit its reset values and keeps station memory across RESET#. -/
def Sys2Proof.Part.ResetGivesResetValues : Prop :=
  ∀ (p : Bool) (s : State), exec (.reset p) s =
    .next { lpc := .reset, liu := .reset, pub := .reset, subs := Vector.replicate 24 (Sub.fresh 0), dpc := .reset,
            rqt := .reset, pdu := .reset, memory := if p then [] else s.memory, pending := s.pending,
            freeIndex := s.freeIndex }

/-- The release of RESET# samples the straps and enters CONFIG; it happens in RESET alone. -/
def Sys2Proof.Part.ReleaseSamplesStraps : Prop :=
  ∀ (st : Station) (br : BitVec 2) (s : State),
    (s.lpc.state = .reset → ∃ t, exec (.resetRelease st br) s = .next t ∧
      t.lpc.state = .config ∧ t.lpc.stationNumber = st ∧ t.lpc.bitRate = (if br = 3 then 2 else br) ∧
      t.lpc.cmd = 0 ∧ t.lpc.arg0 = 0 ∧ t.lpc.arg1 = 0 ∧ t.lpc.arg2 = 0 ∧ t.lpc.arg3 = 0 ∧ t.busy = false ∧
      t.lpc.res = 0 ∧ t.lpc.res0 = 0 ∧ t.lpc.res1 = 0 ∧ t.lpc.notices = [] ∧ t.lpc.ntc1 = 0 ∧ t.lpc.lost = false ∧
      t.lpc.dropped = 0 ∧ t.lpc.config = .absent ∧ t.memory = s.memory) ∧
    (s.lpc.state ≠ .reset → exec (.resetRelease st br) s = .next s)

/-- RESET# asserted, and released. The values the manual does not state, and what power-on does to memory, are the model's
choices (logs 1, 16, 17). -/
def Obligations.ResetAndRelease : Prop := Part.ResetGivesResetValues ∧ Part.ReleaseSamplesStraps

/-- START in RUNNING is refused with STATE; in CONFIG it holds BUSY at 1 and reads the record. -/
def Sys2Proof.Part.StartTakenInConfig : Prop :=
  ∀ (s : State), s.lpc.slot = .idle →
    (s.lpc.state = .running → exec .start s = .next ((s.writeCmd 1).finish .state 0 0)) ∧
    (s.lpc.state = .config → exec .start s =
      .next { s with lpc := { s.lpc with cmd := 1, slot := .starting [] } })

/-- Byte `k` of the start record as START reads it: words that a local write reached may be captured (log 2). -/
def Sys2Proof.Machine.State.startByte (s : State) (captured : List (Nat × Word)) (k : Nat) : Nat :=
  ((s.startWord captured (k / 4)).extractLsb' (8 * (k % 4)) 8).toNat

/-- The 16-bit value at bytes `k` and `k + 1` of the start record. -/
def Sys2Proof.Machine.State.startHalf (s : State) (captured : List (Nat × Word)) (k : Nat) : Nat :=
  s.startByte captured k + 256 * s.startByte captured (k + 1)

/-- The value of each start record field, from its bytes (Table 10-8). -/
def Sys2Proof.Machine.State.startValue (s : State) (captured : List (Nat × Word)) : Nat → Nat
  | 1 => s.startHalf captured 0
  | 2 => s.startHalf captured 2
  | 3 => s.startByte captured 10
  | 4 => s.startHalf captured 4
  | 5 => s.startHalf captured 6
  | 6 => s.startHalf captured 8
  | 7 => s.startByte captured 11
  | 8 => s.startByte captured 12
  | 9 => s.startByte captured 13
  | 10 => s.startByte captured 14
  | 11 => s.startHalf captured 16 + 65536 * s.startHalf captured 18
  | 12 => s.startHalf captured 20
  | 13 => s.startHalf captured 24 + 65536 * s.startHalf captured 26
  | 14 => s.startHalf captured 28
  | 15 => s.startByte captured 15
  | _ => 0

/-- Two areas share at least one byte. -/
def Sys2Proof.Machine.sharesByte (b1 n1 b2 n2 : Nat) : Prop := ∃ x, b1 ≤ x ∧ x < b1 + n1 ∧ b2 ≤ x ∧ x < b2 + n2

/-- The range or rule of each start record field (Table 9-2), on the values `v` of the fields. -/
def Sys2Proof.Machine.startFieldOk (v : Nat → Nat) : Nat → Prop
  | 1 => True
  | 2 => 1 ≤ v 2 ∧ v 2 ≤ 1000
  | 3 => v 3 ≤ 7
  | 4 => 10 ≤ v 4 ∧ v 4 ≤ 65535
  | 5 => 10 ≤ v 5 ∧ v 5 ≤ 65535 ∧ v 4 < v 5
  | 6 => 10 ≤ v 6 ∧ v 6 ≤ 65535
  | 7 => 1 ≤ v 7 ∧ v 7 ≤ 8
  | 8 => 1 ≤ v 8 ∧ v 8 ≤ 16 ∧ v 7 ≤ v 8
  | 9 => 1 ≤ v 9 ∧ v 9 ≤ 2
  | 10 => 1 ≤ v 10 ∧ v 10 ≤ 64
  | 11 => v 11 % 16 = 0
  | 12 => 16 ≤ v 12 ∧ v 12 ≤ 512 ∧ v 11 + 48 * v 12 ≤ 262144 ∧ ¬ sharesByte (v 11) (48 * v 12) 0 64
  | 13 => v 13 % 256 = 0
  | 14 => 16 ≤ v 14 ∧ v 14 ≤ 512 ∧ v 13 + 256 * v 14 ≤ 262144 ∧ ¬ sharesByte (v 13) (256 * v 14) 0 64 ∧
      ¬ sharesByte (v 13) (256 * v 14) (v 11) (48 * v 12)
  | 15 => v 15 < 4
  | _ => True

/-- Where no local write has reached the record, its bytes are those of station memory. -/
def Sys2Proof.Part.StartReadsMemory : Prop :=
  ∀ (s : State) (k : Nat), k < 64 → s.startByte [] k = (s.byteAt (addr k)).toNat

/-- A START whose record has a failing field ends with BAD_CONFIG, the first failing field's index and its value. -/
def Sys2Proof.Part.BadStartRecordRefused : Prop :=
  ∀ (s : State) (captured : List (Nat × Word)) (i : Nat), s.lpc.slot = .starting captured → 1 ≤ i → i ≤ 15 →
    let v := s.startValue captured
    ¬ startFieldOk v i → (∀ j, 1 ≤ j → j < i → startFieldOk v j) →
    exec .startCompletion s = .next (s.finish .badConfig (BitVec.ofNat 32 i) (BitVec.ofNat 32 (v i)))

/-- A START whose fields all pass freezes the configuration, sets the pool and the Delivery Queue, enters RUNNING, places a
HELLO, and answers the station number and the bit-rate code. -/
def Sys2Proof.Part.GoodStartRecordRuns : Prop :=
  ∀ (s : State) (captured : List (Nat × Word)), s.lpc.slot = .starting captured → s.liu.oneOff = [] →
    let v := s.startValue captured
    (∀ i, 1 ≤ i → i ≤ 15 → startFieldOk v i) →
    exec .startCompletion s = .next
      { s with
        lpc := { s.lpc with
          config := { incarnation := BitVec.ofNat 16 (v 1), requestTimeout := v 2, retryLimit := v 3, keepalive := v 4,
                      silenceLimit := v 5, pollInterval := v 6, minFetch := v 7, maxFetch := v 8, fetchesPerSub := v 9,
                      releaseBatch := v 10, queueBase := v 11, queueCapacity := v 12, poolBase := v 13,
                      poolBlocks := v 14, noticeEnable := decide (v 15 % 2 = 1), deliveryEnable := decide (2 ≤ v 15) },
          state := .running, slot := .idle, res := 0, res0 := s.lpc.stationNumber.setWidth 32,
          res1 := s.lpc.bitRate.setWidth 32 },
        pdu := { s.pdu with blocks := List.replicate (v 14) .free, capacity := v 12, writeIndex := 0, readIndex := 0,
                            fill := 0 },
        liu := { s.liu with oneOff := [headerFrame .hello
          { source := s.lpc.stationNumber, dest := 0, broadcast := true, incarnation := BitVec.ofNat 16 (v 1), epoch := 0,
            ring := 0, tag := 0, useCount := 0, seq := 0, count := 0, length := 0, reason := 0, newest := false }] } }

/-- START, and what its record leads to. -/
def Obligations.StartOutcomes : Prop :=
  Part.StartTakenInConfig ∧ Part.StartReadsMemory ∧ Part.BadStartRecordRefused ∧ Part.GoodStartRecordRuns

/-! ### The ring commands (chapter 1, section 6.7) -/

/-- A new slot area of ring `r` meets a fixed region, or the slot area of another ring that is OPEN or WITHDRAWING. -/
def Sys2Proof.Machine.State.areaTaken (s : State) (r : RingIdx) (base size : Nat) : Prop :=
  sharesByte base size 0 64 ∨ sharesByte base size s.config.queueBase (48 * s.config.queueCapacity) ∨
  sharesByte base size s.config.poolBase (256 * s.config.poolBlocks) ∨
  ∃ q : RingIdx, q ≠ r ∧ (s.ring q).state ≠ .closed ∧
    sharesByte base size (s.ring q).slotBase.toNat (16 * (s.ring q).slotCount.toNat)

/-- A slot count that OPEN takes. -/
def Sys2Proof.Machine.slotCountOk (count : Word) : Prop :=
  count = 16 ∨ count = 32 ∨ count = 64 ∨ count = 128 ∨ count = 256 ∨ count = 512

/-- OPEN's checks, in order; a refusal changes nothing but the command slot's registers. -/
def Sys2Proof.Part.OpenRefusals : Prop :=
  ∀ (ring base count retain : Word) (s : State), s.ready →
    let refused (c : ResultCode) : Prop :=
      exec (.openRing ring base count retain) s = .next ((s.args4 2 ring base count retain).finish c 0 0)
    (8 ≤ ring.toNat → refused .badArg) ∧
    ∀ r : RingIdx, ring.toNat = r.val →
      ((s.ring r).state ≠ .closed → refused .state) ∧
      ((s.ring r).state = .closed →
        ((¬ slotCountOk count ∨ 1 < retain.toNat) → refused .badArg) ∧
        (slotCountOk count → retain.toNat ≤ 1 →
          ((base.toNat % 16 ≠ 0 ∨ 262144 < base.toNat + 16 * count.toNat) → refused .badArg) ∧
          (base.toNat % 16 = 0 → base.toNat + 16 * count.toNat ≤ 262144 →
            s.areaTaken r base.toNat (16 * count.toNat) → refused .overlap)))

/-- An OPEN that passes its checks starts a new epoch with an empty ring, and sets announce pending. -/
def Sys2Proof.Part.OpenStartsEpoch : Prop :=
  ∀ (ring base count retain : Word) (r : RingIdx) (s : State), s.ready → ring.toNat = r.val →
    (s.ring r).state = .closed → slotCountOk count → retain.toNat ≤ 1 → base.toNat % 16 = 0 →
    base.toNat + 16 * count.toNat ≤ 262144 → ¬ s.areaTaken r base.toNat (16 * count.toNat) →
    exec (.openRing ring base count retain) s = .next
      (((s.args4 2 ring base count retain).modRing r fun g =>
        { state := .opened, epoch := g.epoch + 1, revision := 0, slotBase := base.setWidth 18,
          slotCount := count.setWidth 10, retain := retain == 1, tail := 0, commit := 0, reclaim := 0,
          announcePending := true, roster := [], drain := none }).finish .ok (((s.ring r).epoch + 1).setWidth 32) 0)

/-- OPEN. -/
def Obligations.OpenOutcomes : Prop := Part.OpenRefusals ∧ Part.OpenStartsEpoch

/-- ADVANCE's checks, in order, and the start of validation with BUSY at 1. -/
def Obligations.AdvanceChecks : Prop :=
  ∀ (ring n : Word) (s : State), s.ready →
    let result (c : ResultCode) (w : Word) : Prop :=
      exec (.advance ring n) s = .next ((s.args2 3 ring n).finish c w 0)
    (8 ≤ ring.toNat → result .badArg 0) ∧
    ∀ r : RingIdx, ring.toNat = r.val →
      ((s.ring r).state ≠ .opened → result .state 0) ∧
      ((s.ring r).state = .opened →
        ((n = 0 ∨ (s.ring r).slotCount.toNat < n.toNat) → result .badArg 0) ∧
        (1 ≤ n.toNat → n.toNat ≤ (s.ring r).slotCount.toNat →
          ((s.ring r).slotCount.toNat < ((s.ring r).tail - (s.ring r).reclaim).toNat + n.toNat →
            result .ringFull
              (BitVec.ofNat 32 ((s.ring r).slotCount.toNat - ((s.ring r).tail - (s.ring r).reclaim).toNat))) ∧
          (((s.ring r).tail - (s.ring r).reclaim).toNat + n.toNat ≤ (s.ring r).slotCount.toNat →
            exec (.advance ring n) s = .next
              { s.args2 3 ring n with
                lpc := { (s.args2 3 ring n).lpc with
                  slot := .advancing { ring := r, start := (s.ring r).tail, length := n.toNat, judged := 0, part := [],
                                       bad := none } } })))

/-- The slot of sequence `q` as memory holds it passes a check of Table 1-4, by its code. -/
def Sys2Proof.Machine.State.slotPasses (s : State) (r : RingIdx) (q : Seq) : Nat → Prop
  | 1 => (s.slotAt (s.ring r) q).length.toNat ≤ 4096
  | 2 => (s.slotAt (s.ring r) q).flags &&& 0xFC = 0
  | 3 => (s.slotAt (s.ring r) q).offset.toNat % 4 = 0
  | 4 => (s.slotAt (s.ring r) q).length = 0 ∨
      (s.slotAt (s.ring r) q).offset.toNat + (s.slotAt (s.ring r) q).length.toNat ≤ 262144
  | 5 => ∀ area ∈ fixedRegions s.config ++ s.publishedAreas,
      ¬ sharesByte (s.slotAt (s.ring r) q).offset.toNat (s.slotAt (s.ring r) q).length.toNat area.1 area.2
  | _ => True

/-- An ADVANCE none of whose slots has been read yet is refused at its first bad slot, with the first check it fails. -/
def Sys2Proof.Part.BadDescriptorRefusesAdvance : Prop :=
  ∀ (s : State) (r : RingIdx) (start : Seq) (n k code : Nat),
    s.lpc.slot = .advancing { ring := r, start := start, length := n, judged := 0, part := [], bad := none } →
    k < n → 1 ≤ code → code ≤ 5 →
    (∀ i c, i < k → 1 ≤ c → c ≤ 5 → s.slotPasses r (start + BitVec.ofNat 32 i) c) →
    (∀ c, 1 ≤ c → c < code → s.slotPasses r (start + BitVec.ofNat 32 k) c) →
    ¬ s.slotPasses r (start + BitVec.ofNat 32 k) code →
    exec .advanceCompletion s = .next (s.finish .badDescriptor (BitVec.ofNat 32 k) (BitVec.ofNat 32 code))

/-- An ADVANCE whose slots all pass writes their sequence fields, raises the tail, sets announce pending, and with an empty
roster and retain off raises the reclaim and commit points to the new tail. -/
def Sys2Proof.Part.AdvancePublishes : Prop :=
  ∀ (s : State) (r : RingIdx) (start : Seq) (n : Nat),
    s.lpc.slot = .advancing { ring := r, start := start, length := n, judged := 0, part := [], bad := none } →
    (∀ i c, i < n → 1 ≤ c → c ≤ 5 → s.slotPasses r (start + BitVec.ofNat 32 i) c) →
    ∃ t, exec .advanceCompletion s = .next t ∧ t.lpc.res = 0 ∧ t.lpc.slot = .idle ∧
      t.lpc.res0 = (s.ring r).tail + BitVec.ofNat 32 n ∧ t.lpc.res1 = 0 ∧
      (t.ring r).tail = (s.ring r).tail + BitVec.ofNat 32 n ∧ (t.ring r).announcePending = true ∧
      ((s.ring r).roster = [] → (s.ring r).retain = false →
        (t.ring r).reclaim = (t.ring r).tail ∧
        (seqBefore (s.ring r).commit (t.ring r).tail = true → (t.ring r).commit = (t.ring r).tail)) ∧
      t.memory = (((List.range n).map fun i => start + BitVec.ofNat 32 i).foldl
        (fun u q => u.putBytes ((s.ring r).slotAddr q + 12) (wordBytes q)) s).memory ∧
      (∀ q, q ≠ r → t.ring q = s.ring q) ∧ t.subs = s.subs ∧ t.dpc = s.dpc ∧ t.rqt = s.rqt ∧ t.pdu = s.pdu ∧ t.liu = s.liu

/-- The end of the validation of an ADVANCE none of whose slots was read before its completion. -/
def Obligations.AdvanceValidation : Prop := Part.BadDescriptorRefusesAdvance ∧ Part.AdvancePublishes

/-- RETRACT's checks, in order, and the effective retraction. -/
def Obligations.RetractOutcomes : Prop :=
  ∀ (ring t : Word) (s : State), s.ready →
    let u := s.args2 4 ring t
    (8 ≤ ring.toNat → exec (.retract ring t) s = .next (u.finish .badArg 0 0)) ∧
    ∀ r : RingIdx, ring.toNat = r.val →
      let g := s.ring r
      (g.state ≠ .opened → exec (.retract ring t) s = .next (u.finish .state 0 0)) ∧
      (g.state = .opened →
        (2147483648 ≤ (g.tail - t).toNat → exec (.retract ring t) s = .next (u.finish .badArg 0 0)) ∧
        ((g.tail - t).toNat < 2147483648 →
          (1 ≤ (g.commit - t).toNat ∧ (g.commit - t).toNat < 2147483648 →
            exec (.retract ring t) s = .next (u.finish .belowCommit g.commit 0)) ∧
          (¬ (1 ≤ (g.commit - t).toNat ∧ (g.commit - t).toNat < 2147483648) →
            (t = g.tail → exec (.retract ring t) s = .next (u.finish .ok g.tail (g.revision.setWidth 32))) ∧
            (t ≠ g.tail → exec (.retract ring t) s = .next
              ((u.modRing r fun g => { g with tail := t, revision := g.revision + 1, announcePending := true }).finish
                .ok t ((g.revision + 1).setWidth 32))))))

/-- WITHDRAW's checks, in order; the drain of a ring with members; the immediate close of one without, or with drain 0. -/
def Obligations.WithdrawOutcomes : Prop :=
  ∀ (ring drain : Word) (s : State), s.ready →
    let u := s.args2 5 ring drain
    ((8 ≤ ring.toNat ∨ 65535 < drain.toNat) → exec (.withdraw ring drain) s = .next (u.finish .badArg 0 0)) ∧
    ∀ r : RingIdx, ring.toNat = r.val → drain.toNat ≤ 65535 →
      let g := s.ring r
      (g.state ≠ .opened → exec (.withdraw ring drain) s = .next (u.finish .state 0 0)) ∧
      (g.state = .opened → g.roster ≠ [] → drain ≠ 0 →
        exec (.withdraw ring drain) s = .next
          ((u.modRing r fun g => { g with state := .withdrawing, announcePending := true,
                                          drain := some drain.toNat }).finish .ok g.tail (BitVec.ofNat 32 g.roster.length))) ∧
      (g.state = .opened → (g.roster = [] ∨ drain = 0) →
        exec (.withdraw ring drain) s = .next
          (((u.modRing r fun g => { g with state := .closed, announcePending := false, roster := [],
                                           drain := none }).finish .ok g.tail (BitVec.ofNat 32 g.roster.length)).post
            { kind := .ringClosed, index := BitVec.ofNat 8 r.val, reason := 2, value := BitVec.ofNat 32 g.roster.length }))

/-- RING_STATUS answers the fields of the view, and refuses a ring or a view that does not exist. -/
def Obligations.RingStatusWords : Prop :=
  ∀ (ring view : Word) (s : State), s.ready →
    let u := s.args2 6 ring view
    ((8 ≤ ring.toNat ∨ 1 < view.toNat) → exec (.ringStatus ring view) s = .next (u.finish .badArg 0 0)) ∧
    ∀ r : RingIdx, ring.toNat = r.val →
      let g := s.ring r
      (view = 0 → ∃ w, exec (.ringStatus ring view) s = .next (u.finish .ok g.tail w) ∧
        w.extractLsb' 0 10 = (g.tail - g.commit).setWidth 10 ∧ w.extractLsb' 10 10 = (g.tail - g.reclaim).setWidth 10 ∧
        w.extractLsb' 20 2 = g.state.code ∧ w.extractLsb' 22 3 = BitVec.ofNat 3 g.roster.length ∧
        w.getLsbD 25 = g.announcePending ∧ w.extractLsb' 26 6 = 0) ∧
      (view = 1 → ∃ w0 w1, exec (.ringStatus ring view) s = .next (u.finish .ok w0 w1) ∧
        w0.extractLsb' 0 16 = g.epoch ∧ w0.extractLsb' 16 16 = g.revision ∧ w1.extractLsb' 0 18 = g.slotBase ∧
        w1.extractLsb' 18 10 = g.slotCount ∧ w1.getLsbD 28 = g.retain ∧ w1.extractLsb' 29 3 = 0)

/-! ### The subscription commands (chapters 2 to 4) -/

/-- The arguments of JOIN are in their ranges (R27, check 1). -/
def Sys2Proof.Machine.joinArgs (w0 w1 w2 w3 : Word) : Prop :=
  w0.toNat < 32 ∧ w1.toNat < 8 ∧ w2.toNat ≤ 1 ∧
  (∃ k, 1 ≤ k ∧ k ≤ 8 ∧ w3.toNat % 256 = 8 * k) ∧ 1 ≤ w3.toNat / 256 % 256 ∧ w3.toNat / 256 % 256 ≤ 8 ∧ w3.toNat < 65536

/-- JOIN's refusals, in the order of R27; the index that DUPLICATE answers is that of a record naming the producer and
ring. -/
def Sys2Proof.Part.JoinRefusals : Prop :=
  ∀ (w0 w1 w2 w3 : Word) (s : State), s.ready →
    let u := s.args4 7 w0 w1 w2 w3
    let named (j : SubIdx) : Prop := (s.sub j).state ≠ .free ∧ (s.sub j).producer.toNat = w0.toNat ∧ (s.sub j).ring.val = w1.toNat
    (¬ joinArgs w0 w1 w2 w3 → exec (.join w0 w1 w2 w3) s = .next (u.finish .badArg 0 0)) ∧
    (joinArgs w0 w1 w2 w3 →
      (w0.toNat = s.lpc.stationNumber.toNat → exec (.join w0 w1 w2 w3) s = .next (u.finish .self 0 0)) ∧
      (w0.toNat ≠ s.lpc.stationNumber.toNat →
        ((∃ j, named j) → ∃ j, named j ∧ exec (.join w0 w1 w2 w3) s = .next (u.finish .duplicate (BitVec.ofNat 32 j.val) 0)) ∧
        ((¬ ∃ j, named j) → (∀ j, (s.sub j).state ≠ .free) →
          exec (.join w0 w1 w2 w3) s = .next (u.finish .noRoom 0 0))))

/-- A JOIN that passes takes the FREE record with the lowest index into JOINING, reserves the lowest FREE line, answers the
index, and has its JOIN request bound to a tag or waiting for one. -/
def Sys2Proof.Part.JoinTakesFreeRecord : Prop :=
  ∀ (w0 w1 w2 w3 : Word) (i : SubIdx) (l : LineIdx) (s : State), s.ready → joinArgs w0 w1 w2 w3 →
    w0.toNat ≠ s.lpc.stationNumber.toNat →
    (∀ j, (s.sub j).state = .free ∨ (s.sub j).producer.toNat ≠ w0.toNat ∨ (s.sub j).ring.val ≠ w1.toNat) →
    (s.sub i).state = .free → (∀ j, j < i → (s.sub j).state ≠ .free) →
    s.dpc.lines.get l = .free → (∀ k, k < l → s.dpc.lines.get k ≠ .free) →
    ∃ t, exec (.join w0 w1 w2 w3) s = .next t ∧
      t.lpc = { s.lpc with cmd := 7, arg0 := w0, arg1 := w1, arg2 := w2, arg3 := w3, res := 0,
                           res0 := BitVec.ofNat 32 i.val, res1 := 0 } ∧
      t.sub i = { Sub.fresh (s.sub i).generation with
        state := .joining, producer := w0.setWidth 5, ring := ⟨w1.toNat % 8, by omega⟩, newest := w2 == 1,
        depth := w3.toNat % 256, window := w3.toNat / 256 % 256, claims := (t.sub i).claims } ∧
      ((t.sub i).claims = [.join (w2 == 1)] ∨
        ∃ g, (t.tag g).bound = some { sub := i, request := .join (w2 == 1), attempts := 1, deadline := none }) ∧
      t.dpc.lines.get l = .reserved i ∧ (∀ k, k ≠ l → t.dpc.lines.get k = s.dpc.lines.get k) ∧
      (∀ j, j ≠ i → t.sub j = { s.sub j with claims := (t.sub j).claims }) ∧
      t.pub = s.pub ∧ t.pdu = s.pdu ∧ t.liu = s.liu ∧ t.memory = s.memory

/-- JOIN. -/
def Obligations.JoinOutcomes : Prop := Part.JoinRefusals ∧ Part.JoinTakesFreeRecord

/-- LEAVE's refusals, and the entry to LEAVING with OK, or its completion as LEFT at once. From ACTIVE or FINISHING the timers
are stopped, the pending flags cleared, the waits and the issue position gone, and what lies beyond PP is given up. -/
def Obligations.LeaveOutcomes : Prop :=
  ∀ (w0 : Word) (s : State), s.ready →
    let u := s.args1 8 w0
    (24 ≤ w0.toNat → exec (.leave w0) s = .next (u.finish .badArg 0 0)) ∧
    ∀ i : SubIdx, w0.toNat = i.val →
      ((s.sub i).state = .free ∨ (s.sub i).state = .leaving ∨ (s.sub i).state = .ended →
        exec (.leave w0) s = .next (u.finish .state 0 0)) ∧
      ((s.sub i).state = .joining ∨ (s.sub i).state = .active ∨ (s.sub i).state = .finishing →
        ∃ t, exec (.leave w0) s = .next t ∧ t.lpc.res = 0 ∧ t.lpc.res0 = 0 ∧ t.lpc.res1 = 0 ∧
          ((t.sub i).state = .leaving ∨ (t.sub i).state = .ended ∧ (t.sub i).reason = .left) ∧
          ((s.sub i).state ≠ .joining →
            (t.sub i).poll = none ∧ (t.sub i).keepalive = none ∧ (t.sub i).releasePending = false ∧
            (t.sub i).lineWait = false ∧ (t.sub i).pullWait = false ∧ (t.sub i).blockWait = none ∧
            (t.sub i).issue = none ∧
            (((s.sub i).fp - (s.sub i).pp).toNat < 2147483648 → (t.sub i).fp = (t.sub i).pp) ∧
            (((s.sub i).ap - (s.sub i).pp).toNat < 2147483648 → (t.sub i).ap = (t.sub i).pp)) ∧
          t.pub = s.pub ∧ t.liu.replies = s.liu.replies ∧ t.config = s.config)

/-- The FETCH requests of a subscription that wait for no tag: its outstanding ones without those that a FLUSH withdraws
(R78, step 2). -/
def Sys2Proof.Machine.Sub.fetchesInFlight (b : Sub) : Nat := b.fetchesOut - (b.claims.filter Request.isFetch).length

/-- The pointers of a subscription in their order (R26), as far as a cut at PP needs it. -/
def Sys2Proof.Machine.Sub.pointersOrdered (b : Sub) : Prop :=
  (b.pp - b.dp).toNat < 2147483648 ∧ (b.fp - b.pp).toNat < 2147483648 ∧ (b.ap - b.pp).toNat < 2147483648

/-- State `u` is `s` after the flush of subscription `i` (R78): the generation risen, the waiting FETCH claims withdrawn, what
lies at or beyond PP given up, what lies in [DP, PP) kept, and flush pending set. -/
def Sys2Proof.Machine.State.flushedTo (s u : State) (i : SubIdx) : Prop :=
  (u.sub i).generation = (s.sub i).generation + 1 ∧ (u.sub i).flushPending = true ∧ (u.sub i).lineWait = false ∧
  (u.sub i).claims = (s.sub i).claims.filter (fun q => !q.isFetch) ∧
  (u.sub i).fetchesOut = (s.sub i).fetchesInFlight ∧ (u.sub i).state = (s.sub i).state ∧
  (u.sub i).dp = (s.sub i).dp ∧ (u.sub i).pp = (s.sub i).pp ∧ (u.sub i).kt = (s.sub i).kt ∧
  (u.sub i).revision = (s.sub i).revision ∧
  ((s.sub i).pointersOrdered → (u.sub i).fp = (s.sub i).pp ∧ (u.sub i).ap = (s.sub i).pp ∧
    (∀ q, (q - (s.sub i).dp).toNat < ((s.sub i).pp - (s.sub i).dp).toNat → u.entryAt i q = s.entryAt i q)) ∧
  ∀ q, (q - (s.sub i).pp).toNat < 2147483648 → u.entryAt i q ≠ .asked ∧ ∀ im, u.entryAt i q ≠ .held im

/-- FLUSH of one subscription: its refusals; OK with the new generation, and the state `u` after R78, from which the completion
test and what it leads to follow (R79). With a FETCH still in flight an ACTIVE subscription stays flush pending and no notice
is posted; with none the flush completes at once with FLUSH_DONE, reason 0. -/
def Sys2Proof.Part.FlushOutcomes : Prop :=
  ∀ (w0 : Word) (s : State), s.ready → w0 ≠ 255 →
    let u := s.args1 9 w0
    (24 ≤ w0.toNat → exec (.flush w0) s = .next (u.finish .badArg 0 0)) ∧
    ∀ i : SubIdx, w0.toNat = i.val →
      ((s.sub i).state ≠ .active ∧ (s.sub i).state ≠ .finishing → exec (.flush w0) s = .next (u.finish .state 0 0)) ∧
      ((s.sub i).state = .active ∨ (s.sub i).state = .finishing →
        ∃ u t, exec (.flush w0) s = .next t ∧ t = ((lineWaitRound (u.flushTest i)).evaluate [i]).finishingTest i ∧
          s.flushedTo u i ∧ (u.sub i).flushOwed = true ∧
          u.lpc = { s.lpc with cmd := 9, arg0 := w0, res := 0, res0 := ((s.sub i).generation + 1).setWidth 32,
                               res1 := 0 } ∧
          t.lpc.res = 0 ∧ t.lpc.res0 = ((s.sub i).generation + 1).setWidth 32 ∧
          t.lpc.res1 = 0 ∧ (t.sub i).generation = (s.sub i).generation + 1 ∧ (t.sub i).kt = (s.sub i).kt ∧
          (t.sub i).revision = (s.sub i).revision ∧
          ((s.sub i).fetchesInFlight ≠ 0 → (s.sub i).state = .active →
            (t.sub i).flushPending = true ∧ (t.sub i).flushOwed = true ∧ t.lpc.notices = s.lpc.notices) ∧
          ((s.sub i).fetchesInFlight = 0 → (t.sub i).flushPending = false ∧ (t.sub i).flushOwed = false ∧
            (s.lpc.notices.length < 64 → ∃ later, t.lpc.notices = s.lpc.notices ++
              { kind := .flushDone, index := BitVec.ofNat 8 i.val, reason := 0,
                value := ((s.sub i).generation + 1).setWidth 32 } :: later)) ∧
          t.pub = s.pub ∧ t.pdu.fill = s.pdu.fill ∧ t.memory = s.memory)

/-- The subscription is ACTIVE or FINISHING: FLUSH ALL takes it. -/
def Sys2Proof.Machine.Sub.flushed (b : Sub) : Prop := b.state = .active ∨ b.state = .finishing

/-- FLUSH ALL answers the number of subscriptions in ACTIVE and FINISHING, and raises the generation of exactly those. With
a FETCH in flight one of them that is ACTIVE stays flush pending, in the flush-all set; with none it completes and leaves the
set. -/
def Sys2Proof.Part.FlushAllOutcomes : Prop :=
  ∀ (s : State), s.ready →
    ∃ t, exec .flushAll s = .next t ∧ t.lpc.res = 0 ∧ t.lpc.res1 = 0 ∧
      t.lpc.res0 = BitVec.ofNat 32 ((List.finRange 24).filter fun i =>
        (s.sub i).state == .active || (s.sub i).state == .finishing).length ∧
      (∀ i, (s.sub i).state = .active ∨ (s.sub i).state = .finishing →
        (t.sub i).generation = (s.sub i).generation + 1) ∧
      (∀ i, (s.sub i).state ≠ .active → (s.sub i).state ≠ .finishing →
        (t.sub i).generation = (s.sub i).generation ∧ (t.sub i).state = (s.sub i).state) ∧
      (∀ i, (s.sub i).state = .active → (s.sub i).fetchesInFlight ≠ 0 →
        (t.sub i).flushPending = true ∧ (t.sub i).inFlushAll = true ∧ (t.sub i).flushOwed = (s.sub i).flushOwed) ∧
      (∀ i, (s.sub i).flushed → (s.sub i).fetchesInFlight = 0 →
        (t.sub i).flushPending = false ∧ (t.sub i).inFlushAll = false) ∧
      t.pub = s.pub ∧ t.pdu.fill = s.pdu.fill ∧ t.memory = s.memory

/-- The flush-all notice (R80). The added count counts a subscription once while the set is not empty; with an empty set, and
every flush completed at once, the notice carries the number flushed; with nothing to flush it is posted with value 0. -/
def Sys2Proof.Part.FlushAllNotice : Prop :=
  ∀ (s : State), s.ready →
    (s.dpc.flushAdded.Nodup → (∃ i, (s.sub i).state = .active ∧ (s.sub i).fetchesInFlight ≠ 0) →
      ∃ t, exec .flushAll s = .next t ∧ t.dpc.flushAdded.Nodup ∧
        ∀ j, j ∈ t.dpc.flushAdded ↔ j ∈ s.dpc.flushAdded ∨ (s.sub j).flushed) ∧
    ((∀ i, (s.sub i).inFlushAll = false) → s.dpc.flushAdded = [] → s.dpc.flushEnded = false →
      ((∃ i, (s.sub i).flushed) → (∀ i, (s.sub i).flushed → (s.sub i).fetchesInFlight = 0) →
        s.lpc.notices.length + 25 ≤ 64 →
        ∃ t, exec .flushAll s = .next t ∧ t.dpc.flushAdded = [] ∧
          ({ kind := .flushDone, index := 255, reason := 0, value := BitVec.ofNat 32 ((List.finRange 24).filter fun i =>
            (s.sub i).state == .active || (s.sub i).state == .finishing).length } : Notice) ∈ t.lpc.notices) ∧
      ((∀ i, ¬ (s.sub i).flushed) → (∀ i, (s.sub i).lineWait = false) →
        exec .flushAll s = .next (((s.args1 9 255).finish .ok 0 0).post
          { kind := .flushDone, index := 255, reason := 0, value := 0 })))

/-- FLUSH, of one subscription and of all. -/
def Obligations.FlushCommands : Prop := Part.FlushOutcomes ∧ Part.FlushAllOutcomes ∧ Part.FlushAllNotice

/-- DISMISS returns an ENDED subscription with RM = DP to FREE, keeping its flush generation alone. -/
def Obligations.DismissOutcomes : Prop :=
  ∀ (w0 : Word) (s : State), s.ready →
    let u := s.args1 10 w0
    (24 ≤ w0.toNat → exec (.dismiss w0) s = .next (u.finish .badArg 0 0)) ∧
    ∀ i : SubIdx, w0.toNat = i.val →
      ((s.sub i).state ≠ .ended → exec (.dismiss w0) s = .next (u.finish .state 0 0)) ∧
      ((s.sub i).state = .ended → (s.sub i).rm ≠ (s.sub i).dp →
        exec (.dismiss w0) s = .next (u.finish .pending ((s.sub i).dp - (s.sub i).rm) 0)) ∧
      ((s.sub i).state = .ended → (s.sub i).rm = (s.sub i).dp →
        exec (.dismiss w0) s = .next ((u.modSub i fun b => Sub.fresh b.generation).finish .ok 0 0))

/-- SUB_STATUS answers the words of Table 2-5, and refuses an index or a view that does not exist. -/
def Obligations.SubStatusWords : Prop :=
  ∀ (w0 view : Word) (s : State), s.ready →
    let u := s.args2 11 w0 view
    ((24 ≤ w0.toNat ∨ 4 < view.toNat) → exec (.subStatus w0 view) s = .next (u.finish .badArg 0 0)) ∧
    ∀ i : SubIdx, w0.toNat = i.val →
      let b := s.sub i
      (view = 0 → ∃ x, exec (.subStatus w0 view) s = .next (u.finish .ok x (b.incarnation ++ b.epoch : BitVec (16 + 16))) ∧
        x.extractLsb' 0 3 = b.state.code ∧ x.extractLsb' 3 4 = b.reason.code ∧
        x.extractLsb' 7 4 = BitVec.ofNat 4 (s.linesHeld i) ∧ x.extractLsb' 11 5 = b.producer ∧
        x.extractLsb' 16 3 = BitVec.ofNat 3 b.ring.val ∧ x.getLsbD 19 = b.newest ∧
        x.extractLsb' 20 4 = BitVec.ofNat 4 (b.depth / 8) ∧ x.extractLsb' 24 4 = BitVec.ofNat 4 b.window ∧
        x.getLsbD 28 = b.welcomed ∧ x.extractLsb' 29 3 = 0) ∧
      (view = 1 → exec (.subStatus w0 view) s = .next (u.finish .ok b.rm b.dp)) ∧
      (view = 2 → exec (.subStatus w0 view) s = .next (u.finish .ok b.pp b.fp)) ∧
      (view = 3 → exec (.subStatus w0 view) s = .next (u.finish .ok b.ap b.kt)) ∧
      (view = 4 → exec (.subStatus w0 view) s = .next (u.finish .ok (b.finalTail.getD 0) b.undelivered))

/-- ACCEPT refuses a k above the fill; else it advances the read index, lowers the fill and answers both, and then the
deliveries that the room allows are made within the command (log 9). -/
def Obligations.AcceptOutcomes : Prop :=
  ∀ (k : Word) (s : State), s.ready →
    let u := s.args1 12 k
    (s.pdu.fill < k.toNat → exec (.accept k) s = .next (u.finish .badArg 0 0)) ∧
    (k.toNat ≤ s.pdu.fill →
      let read := (s.pdu.readIndex + k.toNat) % s.pdu.capacity
      let v : State := { u with pdu := { u.pdu with readIndex := read, fill := s.pdu.fill - k.toNat } }
      exec (.accept k) s = .next (deliverAll (v.finish .ok (BitVec.ofNat 32 read) (BitVec.ofNat 32 (s.pdu.fill - k.toNat)))))

/-- RETIRE's refusals, in order; a RETIRE that passes answers the new RM, and frees the blocks of that record alone. -/
def Sys2Proof.Part.RetireOutcomes : Prop :=
  ∀ (w0 q : Word) (s : State), s.ready →
    let u := s.args2 13 w0 q
    (24 ≤ w0.toNat → exec (.retire w0 q) s = .next (u.finish .badArg 0 0)) ∧
    ∀ i : SubIdx, w0.toNat = i.val →
      let b := s.sub i
      (b.state = .free → exec (.retire w0 q) s = .next (u.finish .state 0 0)) ∧
      (b.state ≠ .free → q ≠ b.rm ∨ b.rm = b.dp → exec (.retire w0 q) s = .next (u.finish .order b.rm b.dp)) ∧
      (b.state ≠ .free → q = b.rm → b.rm ≠ b.dp →
        let v := (u.mapBlocks (Block.retire i b.rm)).modSub i fun x => { x with rm := x.rm + 1 }
        exec (.retire w0 q) s = .next ((deliverAll (blockGrantRound (v.finish .ok (b.rm + 1) 0))).batchTest i))

/-- The release batch test sets release pending in ACTIVE and FINISHING when RM has run the batch ahead of the last mark
reported, and changes nothing else. -/
def Sys2Proof.Part.ReleaseBatchTest : Prop :=
  ∀ (s : State) (i : SubIdx),
    (((s.sub i).state = .active ∨ (s.sub i).state = .finishing) ∧
        s.config.releaseBatch ≤ ((s.sub i).rm - (s.sub i).lastReported).toNat →
      s.batchTest i = s.modSub i fun b => { b with releasePending := true }) ∧
    (¬ (((s.sub i).state = .active ∨ (s.sub i).state = .finishing) ∧
        s.config.releaseBatch ≤ ((s.sub i).rm - (s.sub i).lastReported).toNat) → s.batchTest i = s)

/-- RETIRE, and the release batch test that follows it. What the freed blocks lead to stands within the command (log 9). -/
def Obligations.RetireAndBatchTest : Prop := Part.RetireOutcomes ∧ Part.ReleaseBatchTest

/-! ### The local port (sections 9.4 to 9.6) -/

/-- A register write stores CMD and ARG0 to ARG3, and ignores every other offset but GO; in RESET nothing changes; with both
strobes asserted nothing is written and the read returns 0. -/
def Sys2Proof.Part.RegisterWriteStores : Prop :=
  ∀ (both : Bool) (la : Half) (w : Word) (s : State),
    (both = true → exec (.registerWrite both la w) s = .next { s with lpc := { s.lpc with ld := 0 } }) ∧
    (s.lpc.state = .reset → both = false → exec (.registerWrite both la w) s = .next s) ∧
    (s.lpc.state ≠ .reset → both = false →
      (la.toNat % 16 = 0 → exec (.registerWrite both la w) s =
        .next { s with lpc := { s.lpc with cmd := BitVec.ofNat 8 w.toNat } }) ∧
      (la.toNat % 16 = 1 → exec (.registerWrite both la w) s = .next { s with lpc := { s.lpc with arg0 := w } }) ∧
      (la.toNat % 16 = 2 → exec (.registerWrite both la w) s = .next { s with lpc := { s.lpc with arg1 := w } }) ∧
      (la.toNat % 16 = 3 → exec (.registerWrite both la w) s = .next { s with lpc := { s.lpc with arg2 := w } }) ∧
      (la.toNat % 16 = 4 → exec (.registerWrite both la w) s = .next { s with lpc := { s.lpc with arg3 := w } }) ∧
      (6 ≤ la.toNat % 16 → exec (.registerWrite both la w) s = .next s))

/-- The argument words of a command row, in the order of the argument registers. -/
def Sys2Proof.Instr.arguments : Instr → List Word
  | .openRing w0 w1 w2 w3 | .join w0 w1 w2 w3 => [w0, w1, w2, w3]
  | .advance w0 w1 | .retract w0 w1 | .withdraw w0 w1 | .ringStatus w0 w1 | .subStatus w0 w1 | .retire w0 w1 => [w0, w1]
  | .leave w0 | .flush w0 | .dismiss w0 | .accept w0 => [w0]
  | .flushAll => [255]
  | _ => []

/-- The argument registers, in order. -/
def Sys2Proof.Machine.State.argRegisters (s : State) : List Word := [s.lpc.arg0, s.lpc.arg1, s.lpc.arg2, s.lpc.arg3]

/-- A write to GO with CMD and the argument registers holding a command row's code and words does what the row does, for
every row that is a command, an undefined code among them. -/
def Sys2Proof.Part.GoIssuesLatchedCommand : Prop :=
  ∀ (c : Instr) (code : Byte) (w : Word) (la : Half) (s : State), c.commandCode = some code → s.lpc.cmd = code →
    c.arguments <+: s.argRegisters → la.toNat % 16 = 5 →
    ∃ t, exec (.registerWrite false la w) s = .next t ∧ exec c s = .next t

/-- A write to GO is ignored in RESET, and while BUSY is 1. -/
def Sys2Proof.Part.GoWriteIgnored : Prop :=
  ∀ (w : Word) (la : Half) (s : State), la.toNat % 16 = 5 → (s.lpc.state = .reset ∨ s.lpc.slot ≠ .idle) →
    exec (.registerWrite false la w) s = .next s

/-- STAT shows its fields at their bits; in RESET every register reads 0; INT# is asserted exactly while a notice waits with the
notice interrupt enabled, or a record waits with the delivery interrupt enabled. -/
def Sys2Proof.Part.StatusWordAndInterrupt : Prop :=
  ∀ s : State,
    (s.lpc.state ≠ .reset →
      (s.readRegister 6).getLsbD 0 = s.busy ∧ (s.readRegister 6).extractLsb' 1 2 = s.lpc.state.code ∧
      (s.readRegister 6).getLsbD 3 = s.lpc.lost ∧
      (s.readRegister 6).extractLsb' 4 7 = BitVec.ofNat 7 s.lpc.notices.length ∧
      (s.readRegister 6).extractLsb' 11 5 = s.lpc.stationNumber ∧ (s.readRegister 6).extractLsb' 16 2 = s.lpc.bitRate ∧
      (s.readRegister 6).extractLsb' 18 14 = 0) ∧
    (s.lpc.state = .reset → ∀ offset, s.readRegister offset = 0) ∧
    (s.intAsserted = true ↔ s.lpc.notices ≠ [] ∧ s.config.noticeEnable = true ∨
      0 < s.pdu.fill ∧ s.config.deliveryEnable = true)

/-- The register window, the status word and INT#. -/
def Obligations.RegisterWindow : Prop :=
  Part.RegisterWriteStores ∧ Part.GoIssuesLatchedCommand ∧ Part.GoWriteIgnored ∧ Part.StatusWordAndInterrupt

/-- A read of NTC0 takes the oldest notice out, returns its kind, index and reason, and places its value in NTC1; with the
notices-lost flag set, NOTICES_LOST with the dropped count takes the freed place; an empty queue returns NONE. -/
def Sys2Proof.Part.Ntc0ReadTakesOldest : Prop :=
  ∀ (s : State), s.lpc.state ≠ .reset →
    (s.lpc.notices = [] → exec (.ntc0Read false) s = .next { s with lpc := { s.lpc with ntc1 := 0, ld := 0 } }) ∧
    (∀ n rest, s.lpc.notices = n :: rest → s.lpc.lost = false →
      exec (.ntc0Read false) s = .next { s with lpc := { s.lpc with notices := rest, ntc1 := n.value, ld := n.ntc0 } }) ∧
    (∀ n rest, s.lpc.notices = n :: rest → s.lpc.lost = true →
      exec (.ntc0Read false) s = .next { s with lpc := { s.lpc with
        notices := rest ++ [{ kind := .noticesLost, index := 0, reason := 0, value := s.lpc.dropped }],
        ntc1 := n.value, ld := n.ntc0, lost := false, dropped := 0 } }) ∧
    ∀ n : Notice, n.ntc0.extractLsb' 0 8 = n.kind.code ∧ n.ntc0.extractLsb' 8 8 = n.index ∧
      n.ntc0.extractLsb' 16 8 = n.reason ∧ n.ntc0.extractLsb' 24 8 = 0

/-- A read of NTC0 in RESET, or with LWR# asserted too, returns 0 and removes nothing. -/
def Sys2Proof.Part.Ntc0ReadWithoutEffect : Prop :=
  ∀ (both : Bool) (s : State), s.lpc.state = .reset ∨ both = true →
    exec (.ntc0Read both) s = .next { s with lpc := { s.lpc with ld := 0 } }

/-- A notice joins the tail of a queue with room; at 64 it is dropped, the flag set and the count raised, stopping at
2^32 − 1. -/
def Sys2Proof.Part.NoticePostedOrDropped : Prop :=
  ∀ (s : State) (n : Notice),
    (s.lpc.notices.length < 64 → s.post n = { s with lpc := { s.lpc with notices := s.lpc.notices ++ [n] } }) ∧
    (64 ≤ s.lpc.notices.length → s.post n = { s with lpc := { s.lpc with
      lost := true, dropped := BitVec.ofNat 32 (min (s.lpc.dropped.toNat + 1) 4294967295) } })

/-- The notice queue: posting, and reading NTC0. -/
def Obligations.NoticeQueueOperations : Prop :=
  Part.Ntc0ReadTakesOldest ∧ Part.Ntc0ReadWithoutEffect ∧ Part.NoticePostedOrDropped

/-- A local write outside a START or an ADVANCE stores its word at byte offset 4 × LA, least significant byte first: a read
there returns it, every other byte is as it was, and no other state changes. -/
def Sys2Proof.Part.MemoryWriteThenRead : Prop :=
  ∀ (la : Half) (w w' : Word) (s : State), s.lpc.state ≠ .reset → s.lpc.slot = .idle → MemoryCanonical s →
    ∃ t, exec (.localMemoryAccess false true la w) s = .next t ∧ t = { s with memory := t.memory } ∧
      exec (.localMemoryAccess true false la w') t = .next { t with lpc := { t.lpc with ld := w } } ∧
      (∀ k : Nat, k < 4 → t.byteAt (addr (4 * la.toNat + k)) = w.extractLsb' (8 * k) 8) ∧
      ∀ a : Addr, (a.toNat < 4 * la.toNat ∨ 4 * la.toNat + 4 ≤ a.toNat) → t.byteAt a = s.byteAt a

/-- In RESET a memory access writes nothing and a read returns 0; with both strobes asserted it has no effect. -/
def Sys2Proof.Part.MemoryAccessWithoutEffect : Prop :=
  ∀ (lrd lwr : Bool) (la : Half) (w : Word) (s : State),
    (s.lpc.state = .reset → lrd = true →
      exec (.localMemoryAccess lrd lwr la w) s = .next { s with lpc := { s.lpc with ld := 0 } }) ∧
    (s.lpc.state = .reset → lrd = false → exec (.localMemoryAccess lrd lwr la w) s = .next s) ∧
    (lrd = true → lwr = true →
      exec (.localMemoryAccess lrd lwr la w) s = .next { s with lpc := { s.lpc with ld := 0 } })

/-- Local accesses to station memory. -/
def Obligations.LocalMemoryPort : Prop := Part.MemoryWriteThenRead ∧ Part.MemoryAccessWithoutEffect

/-- A local write while START reads its record changes memory; the value that START judges for a word is the old one or the
new one (which of them is free: log 2), and the same for every other word. -/
def Obligations.WriteDuringStart : Prop :=
  ∀ (la : Half) (w : Word) (captured : List (Nat × Word)) (s : State), s.lpc.state = .config →
    s.lpc.slot = .starting captured → la.toNat < 16 → MemoryCanonical s →
    ∃ t captured', exec (.localMemoryAccess false true la w) s = .next t ∧ t.lpc.slot = .starting captured' ∧
      (t.startWord captured' la.toNat = s.startWord captured la.toNat ∨ t.startWord captured' la.toNat = w) ∧
      ∀ k, k < 16 → k ≠ la.toNat → t.startWord captured' k = s.startWord captured k

/-! ### The link (chapter 8) and the request tracker (chapter 5) -/

/-- The first of a table's indices after `p`, in round-robin order, that meets `q`. -/
def Sys2Proof.Machine.firstAfter {n : Nat} (p : Fin n) (q : Fin n → Prop) (i : Fin n) : Prop :=
  q i ∧ ∀ j, q j → (i.val + n - p.val - 1) % n ≤ (j.val + n - p.val - 1) % n

/-- A lost arbitration, and one at which the station has nothing to offer, takes no frame from its source. -/
def Sys2Proof.Part.LossKeepsFrames : Prop :=
  ∀ (others : List Byte) (s : State),
    (s.offer = none ∨ ∃ o, s.offer = some o ∧ ∃ k ∈ others, k.toNat < (s.offerKey o).toNat) →
    exec (.arbitration others) s = .next { s with liu := { s.liu with transmitting := none } }

/-- In RUNNING the oldest one-off entry is offered first, and its win removes it. -/
def Sys2Proof.Part.OneOffFrameWinsFirst : Prop :=
  ∀ (others : List Byte) (f : Frame) (rest : List Frame) (s : State), s.lpc.state = .running → s.liu.oneOff = f :: rest →
    (∀ k ∈ others, (arbitrationKey f.kind s.lpc.stationNumber).toNat ≤ k.toNat) →
    exec (.arbitration others) s = .next { s with liu := { s.liu with oneOff := rest, transmitting := some f } }

/-- With the one-off FIFO empty, the first ring after the announce pointer with announce pending set is announced as its
record stands; the win clears the flag and moves the pointer. -/
def Sys2Proof.Part.AnnounceWinCarriesRecord : Prop :=
  ∀ (others : List Byte) (r : RingIdx) (s : State), s.lpc.state = .running → s.liu.oneOff = [] →
    firstAfter s.liu.announcePtr (fun q => (s.ring q).announcePending = true) r →
    (∀ k ∈ others, s.lpc.stationNumber.toNat ≤ k.toNat) →
    ∃ f, exec (.arbitration others) s = .next
        { s.modRing r (fun g => { g with announcePending := false }) with
          liu := { s.liu with announcePtr := r, transmitting := some f } } ∧
      f.kind = .announce ∧ f.header.broadcast = true ∧ f.header.source = s.lpc.stationNumber ∧
      f.header.incarnation = s.config.incarnation ∧ f.header.epoch = (s.ring r).epoch ∧
      f.header.ring.toNat = r.val ∧ f.tail.tail = (s.ring r).tail ∧ f.tail.revision = (s.ring r).revision ∧
      f.tail.state = (s.ring r).state.code ∧ f.body = []

/-- With no one-off entry and no announce pending, the RELEASE of the first subscription after the release pointer wins:
it carries RM as its mark, clears release pending, and restarts the keepalive timer. -/
def Sys2Proof.Part.ReleaseWinReportsRm : Prop :=
  ∀ (others : List Byte) (i : SubIdx) (s : State), s.lpc.state = .running → s.liu.oneOff = [] →
    (∀ r, (s.ring r).announcePending = false) →
    firstAfter s.liu.releasePtr (fun j => (s.sub j).releasePending = true) i →
    (∀ k ∈ others, s.lpc.stationNumber.toNat ≤ k.toNat) →
    ∃ f, exec (.arbitration others) s = .next
        { s.modSub i (fun b => { b with releasePending := false, lastReported := b.rm,
                                        keepalive := some s.config.keepalive }) with
          liu := { s.liu with releasePtr := i, transmitting := some f } } ∧
      f.kind = .release ∧ f.header.dest = (s.sub i).producer ∧ f.header.epoch = (s.sub i).epoch ∧
      f.header.ring.toNat = (s.sub i).ring.val ∧ f.header.seq = (s.sub i).rm

/-- Lost arbitrations, and the wins of control frames. The field that holds the frame on the medium is the model's (log 18). -/
def Obligations.ControlFrameArbitration : Prop :=
  Part.LossKeepsFrames ∧ Part.OneOffFrameWinsFirst ∧ Part.AnnounceWinCarriesRecord ∧ Part.ReleaseWinReportsRm

/-- With no control frame ready, the reply at the head of the reply transmit queue is offered, and its win removes it. -/
def Sys2Proof.Part.ReplyWinLeavesQueue : Prop :=
  ∀ (others : List Byte) (f : Frame) (rest : List Frame) (s : State), s.lpc.state = .running → s.liu.oneOff = [] →
    (∀ r, (s.ring r).announcePending = false) → (∀ i, (s.sub i).releasePending = false) → s.liu.replies = f :: rest →
    (∀ k ∈ others, (arbitrationKey f.kind s.lpc.stationNumber).toNat ≤ k.toNat) →
    exec (.arbitration others) s = .next { s with liu := { s.liu with replies := rest, transmitting := some f } }

/-- With no control frame and no reply ready, the request at the head of the request transmit queue is offered; its win takes
its tag out of the queue, makes it SENT with the request timeout, and for a FETCH or PULL in ACTIVE or FINISHING restarts the
keepalive timer. -/
def Sys2Proof.Part.RequestWinStartsDeadline : Prop :=
  ∀ (others : List Byte) (t : TagIdx) (rest : List TagIdx) (b : Binding) (s : State), s.lpc.state = .running →
    s.liu.oneOff = [] → (∀ r, (s.ring r).announcePending = false) → (∀ i, (s.sub i).releasePending = false) →
    s.liu.replies = [] → s.rqt.queue = t :: rest → (s.tag t).bound = some b →
    (∀ k ∈ others, (64 + s.lpc.stationNumber.toNat) ≤ k.toNat) →
    ∃ u f, exec (.arbitration others) s = .next u ∧ u.liu = { s.liu with transmitting := some f } ∧
      (u.tag t).bound = some { b with deadline := some s.config.requestTimeout } ∧
      (u.tag t).useCount = (s.tag t).useCount ∧ rest <+: u.rqt.queue ∧
      (¬ b.request.isJoin = true → (s.sub b.sub).state = .active ∨ (s.sub b.sub).state = .finishing →
        (u.sub b.sub).keepalive = some s.config.keepalive) ∧
      f.header.dest = (s.sub b.sub).producer ∧ f.header.tag.toNat = t.val ∧ f.header.useCount = (s.tag t).useCount ∧
      f.header.ring.toNat = (s.sub b.sub).ring.val ∧
      (∀ newest, b.request = .join newest → f.kind = .join ∧ f.header.epoch = 0 ∧ f.header.newest = newest) ∧
      (∀ q n g, b.request = .fetch q n g → f.kind = .fetch ∧ f.header.epoch = (s.sub b.sub).epoch ∧ f.header.seq = q ∧
        f.header.count = BitVec.ofNat 5 n) ∧
      (∀ q c n blk, b.request = .pull q c n blk → f.kind = .pull ∧ f.header.epoch = (s.sub b.sub).epoch ∧
        f.header.seq = q ∧ f.header.count = BitVec.ofNat 5 c ∧ f.header.length = BitVec.ofNat 9 n)

/-- The wins of replies and of requests (the frame on the medium: log 18). -/
def Obligations.ReplyAndRequestWins : Prop := Part.ReplyWinLeavesQueue ∧ Part.RequestWinStartsDeadline

/-- One grant: the oldest waiting claim of the first subscription after the tag-grant pointer takes the first FREE tag after
the tag pointer, with its use count raised by one and attempts 1, and joins the tail of the request transmit queue. -/
def Sys2Proof.Part.TagGrantTakesOldestClaim : Prop :=
  ∀ (g : TagIdx) (i : SubIdx) (q : Request) (rest : List Request) (s : State), s.rqt.queue.length < 16 →
    s.rqt.retryLine = [] → firstAfter s.rqt.tagPtr (fun u => (s.tag u).bound = none) g →
    firstAfter s.rqt.tagGrantPtr (fun j => (s.sub j).claims ≠ []) i → (s.sub i).claims = q :: rest →
    ∃ t, exec .tagGrant s = .next t ∧
      t.sub i = { s.sub i with claims := rest } ∧ (∀ j, j ≠ i → t.sub j = s.sub j) ∧
      t.tag g = { useCount := (s.tag g).useCount + 1,
                  bound := some { sub := i, request := q, attempts := 1, deadline := none } } ∧
      (∀ u, u ≠ g → t.tag u = s.tag u) ∧
      t.rqt.queue = s.rqt.queue ++ [g] ∧ t.rqt.retryLine = [] ∧ t.rqt.tagPtr = g ∧ t.rqt.tagGrantPtr = i ∧
      t.lpc = s.lpc ∧ t.liu = s.liu ∧ t.pub = s.pub ∧ t.dpc = s.dpc ∧ t.pdu = s.pdu ∧ t.memory = s.memory

/-- The oldest tag of the retry line moves to the tail of the request transmit queue when room is there. -/
def Sys2Proof.Part.RetryLineMovesOldest : Prop :=
  ∀ (g : TagIdx) (rest : List TagIdx) (s : State), s.rqt.retryLine = g :: rest → s.rqt.queue.length < 16 →
    exec .retryLineMove s = .next { s with rqt := { s.rqt with queue := s.rqt.queue ++ [g], retryLine := rest } }

/-- A grant, and the move of a retry, as the rows do them from a state in which they are due (log 9). -/
def Obligations.RequestTransmitOrder : Prop := Part.TagGrantTakesOldestClaim ∧ Part.RetryLineMovesOldest

/-- The deadline of a SENT tag whose subscription is JOINING, ACTIVE or FINISHING: a retry while attempts are within the retry
limit, else the subscription ends SILENT. -/
def Sys2Proof.Part.DeadlineRetriesOrFails : Prop :=
  ∀ (g : TagIdx) (b : Binding) (s : State), (s.tag g).bound = some b → b.deadline = some 0 →
    ((s.sub b.sub).state = .joining ∨ (s.sub b.sub).state = .active ∨ (s.sub b.sub).state = .finishing) →
    (b.attempts ≤ s.config.retryLimit →
      let u := s.modTag g fun x => { x with bound := some { b with attempts := b.attempts + 1, deadline := none } }
      ((s.rqt.queue.length < 16 ∧ s.rqt.retryLine = []) →
        exec (.deadlineExpiry g) s = .next { u with rqt := { u.rqt with queue := s.rqt.queue ++ [g] } }) ∧
      (¬ (s.rqt.queue.length < 16 ∧ s.rqt.retryLine = []) →
        exec (.deadlineExpiry g) s = .next { u with rqt := { u.rqt with retryLine := s.rqt.retryLine ++ [g] } })) ∧
    (s.config.retryLimit < b.attempts →
      ∃ t, exec (.deadlineExpiry g) s = .next t ∧ (t.sub b.sub).state = .ended ∧ (t.sub b.sub).reason = .silent ∧
        (t.sub b.sub).dp = (s.sub b.sub).dp ∧ (t.sub b.sub).rm = (s.sub b.sub).rm ∧
        (t.sub b.sub).undelivered = if (s.sub b.sub).welcomed then (s.sub b.sub).kt - (s.sub b.sub).dp else 0)

/-- State `u` is `s` with the pull of sequence `q` of subscription `i` abandoned (R106): with `q` in [DP, PP) its descriptor
and every later one are discarded, their blocks FREE, and PP, FP and AP stand at `q`; else nothing of it was left. -/
def Sys2Proof.Machine.State.pullAbandoned (s u : State) (i : SubIdx) (q : Seq) : Prop :=
  (u.sub i).pullsOut = (s.sub i).pullsOut - 1 ∧ (u.sub i).fetchesOut = (s.sub i).fetchesOut ∧
  (u.sub i).dp = (s.sub i).dp ∧ (u.sub i).rm = (s.sub i).rm ∧ (u.sub i).kt = (s.sub i).kt ∧
  (u.sub i).state = (s.sub i).state ∧
  ((q - (s.sub i).dp).toNat < ((s.sub i).pp - (s.sub i).dp).toNat →
    let later (r : Seq) : Prop := (r - q).toNat < ((s.sub i).pp - q).toNat
    (u.sub i).pp = q ∧ (u.sub i).fp = q ∧ (u.sub i).ap = q ∧ (∀ r, later r → u.entryAt i r = .empty) ∧
    (∀ p, p ∈ (u.sub i).pulls ↔ p ∈ (s.sub i).pulls ∧ ¬ later p.image.seq) ∧
    (∀ (n k : Nat) (r : Seq), s.pdu.blocks[n]? = some (.filling i r k) → later r → u.pdu.blocks[n]? = some .free) ∧
    (∀ (n : Nat) (x : Block), s.pdu.blocks[n]? = some x → (∀ r k, x = .filling i r k → ¬ later r) →
      u.pdu.blocks[n]? = some x)) ∧
  (((s.sub i).pp - (s.sub i).dp).toNat ≤ (q - (s.sub i).dp).toNat →
    (u.sub i).pp = (s.sub i).pp ∧ (u.sub i).fp = (s.sub i).fp ∧ (u.sub i).ap = (s.sub i).ap ∧
    (u.sub i).pulls = (s.sub i).pulls ∧ u.dpc = s.dpc ∧ u.pdu = s.pdu)

/-- The deadline of a SENT tag whose subscription is LEAVING: the request is abandoned, whatever the attempts. Its tag becomes
FREE and its request ends for its owner (state `u`): a FETCH by its count, a PULL with the discard of R106; then comes what
that frees leads to (log 9), and when it was the last of the subscription the leave completes as LEFT. -/
def Sys2Proof.Part.DeadlineInLeavingAbandons : Prop :=
  ∀ (g : TagIdx) (b : Binding) (s : State), (s.tag g).bound = some b → b.deadline = some 0 →
    (s.sub b.sub).state = .leaving →
    ∃ u t, exec (.deadlineExpiry g) s = .next t ∧ t = (settle u).leaveTest b.sub ∧
      u.tag g = { s.tag g with bound := none } ∧ (∀ x, x ≠ g → u.tag x = s.tag x) ∧ g ∉ u.rqt.queue ∧
      g ∉ u.rqt.retryLine ∧ (∀ j, j ≠ b.sub → u.sub j = s.sub j) ∧ u.liu = s.liu ∧ u.pub = s.pub ∧ u.memory = s.memory ∧
      (∀ newest, b.request = .join newest → u.subs = s.subs ∧ u.dpc = s.dpc ∧ u.pdu = s.pdu ∧ u.lpc = s.lpc) ∧
      (∀ q n gen, b.request = .fetch q n gen → (u.sub b.sub).fetchesOut = (s.sub b.sub).fetchesOut - 1 ∧
        (u.sub b.sub).pp = (s.sub b.sub).pp ∧ (u.sub b.sub).fp = (s.sub b.sub).fp ∧ (u.sub b.sub).ap = (s.sub b.sub).ap ∧
        (u.sub b.sub).dp = (s.sub b.sub).dp ∧ (u.sub b.sub).state = .leaving ∧ u.pdu = s.pdu) ∧
      (∀ q c n blk, b.request = .pull q c n blk → s.pullAbandoned u b.sub q ∧ u.lpc = s.lpc) ∧
      ((s.sub b.sub).claims = [] → ∀ x, (t.tag g).bound = some x → x.sub ≠ b.sub) ∧
      ((s.sub b.sub).claims = [] → (∀ u x, u ≠ g → (s.tag u).bound = some x → x.sub ≠ b.sub) →
        (t.sub b.sub).state = .ended ∧ (t.sub b.sub).reason = .left) ∧
      t.pub = s.pub ∧ t.liu.replies = s.liu.replies

/-- A deadline that has not run out, its timer stopped or restarted since, and that of a FREE tag: nothing happens (R120;
log 7). -/
def Sys2Proof.Part.DeadlineNotRunOut : Prop :=
  ∀ (g : TagIdx) (s : State), (∀ b, (s.tag g).bound = some b → b.deadline ≠ some 0) →
    exec (.deadlineExpiry g) s = .next s

/-- The deadline of a request. -/
def Obligations.DeadlineOutcomes : Prop :=
  Part.DeadlineRetriesOrFails ∧ Part.DeadlineInLeavingAbandons ∧ Part.DeadlineNotRunOut

/-- A keepalive that runs out sets release pending and is left stopped. -/
def Sys2Proof.Part.KeepaliveExpirySetsRelease : Prop :=
  ∀ (i : SubIdx) (s : State), (s.sub i).keepalive = some 0 →
    exec (.keepaliveExpiry i) s = .next (s.modSub i fun b => { b with keepalive := none, releasePending := true })

/-- A poll timer that runs out restarts; without the probe's conditions nothing else changes. -/
def Sys2Proof.Part.PollExpiryRestarts : Prop :=
  ∀ (i : SubIdx) (s : State), (s.sub i).poll = some 0 →
    ((s.sub i).state ≠ .active ∨ (s.sub i).ap ≠ (s.sub i).kt ∨ (s.sub i).fetchesOut ≠ 0 ∨ (s.sub i).flushPending = true) →
    exec (.pollExpiry i) s = .next (s.modSub i fun b => { b with poll := some s.config.pollInterval })

/-- With its conditions met the probe is claimed: a FETCH of count 0 at AP under the current flush generation, and the
outstanding count becomes one. -/
def Sys2Proof.Part.PollProbeIssued : Prop :=
  ∀ (i : SubIdx) (s : State), (s.sub i).poll = some 0 → (s.sub i).state = .active →
    (s.sub i).ap = (s.sub i).kt → (s.sub i).fetchesOut = 0 → (s.sub i).flushPending = false → (s.sub i).claims = [] →
    ∃ t, exec (.pollExpiry i) s = .next t ∧ (t.sub i).poll = some s.config.pollInterval ∧ (t.sub i).fetchesOut = 1 ∧
      (t.sub i).ap = (s.sub i).ap ∧ t.dpc = s.dpc ∧
      ((t.sub i).claims = [.fetch (s.sub i).ap 0 (s.sub i).generation] ∨
        ∃ g, (t.tag g).bound = some { sub := i, request := .fetch (s.sub i).ap 0 (s.sub i).generation, attempts := 1,
                                      deadline := none }) ∧
      t.lpc = s.lpc ∧ t.liu = s.liu ∧ t.pub = s.pub ∧ t.pdu = s.pdu ∧ t.memory = s.memory

/-- A keepalive or poll timer that has not run out, stopped or restarted since: nothing happens (R103, R108; log 7). -/
def Sys2Proof.Part.KeepalivePollNotRunOut : Prop :=
  ∀ (i : SubIdx) (s : State),
    ((s.sub i).keepalive ≠ some 0 → exec (.keepaliveExpiry i) s = .next s) ∧
    ((s.sub i).poll ≠ some 0 → exec (.pollExpiry i) s = .next s)

/-- The keepalive and poll timers. -/
def Obligations.KeepaliveAndPoll : Prop :=
  Part.KeepaliveExpirySetsRelease ∧ Part.PollExpiryRestarts ∧ Part.PollProbeIssued ∧ Part.KeepalivePollNotRunOut

/-- A silence timer that runs out removes the member with MEMBER_EVICTED, reason SILENT, and places an EVICT to it; an OPEN
ring stays OPEN. -/
def Sys2Proof.Part.SilenceExpiryRemoves : Prop :=
  ∀ (r : RingIdx) (h : Station) (m : Member) (s : State), m ∈ (s.ring r).roster → m.station = h →
    m.silence = some 0 → rosterOrdered (s.ring r).roster → (s.ring r).state = .opened → s.lpc.notices.length < 64 →
    s.liu.oneOff.length < 8 →
    ∃ t f, exec (.silenceExpiry r h) s = .next t ∧
      (t.ring r).roster = (s.ring r).roster.filter (fun x => x.station != h) ∧ (t.ring r).state = .opened ∧
      t.liu.oneOff = s.liu.oneOff ++ [f] ∧ f.kind = .evict ∧ f.header.dest = h ∧ f.header.ring.toNat = r.val ∧
      f.header.epoch = (s.ring r).epoch ∧
      t.lpc.notices = s.lpc.notices ++ [{ kind := .memberEvicted, index := BitVec.ofNat 8 r.val, reason := 7,
                                          value := h.setWidth 32 }] ∧
      (∀ q, q ≠ r → t.ring q = s.ring q) ∧ t.subs = s.subs ∧ t.dpc = s.dpc ∧ t.rqt = s.rqt ∧ t.pdu = s.pdu ∧
      t.memory = s.memory

/-- A silence timer that has not run out, stopped or restarted since, and that of a station with no entry: nothing happens
(R143; log 7). -/
def Sys2Proof.Part.SilenceNotRunOut : Prop :=
  ∀ (r : RingIdx) (h : Station) (s : State), (∀ m ∈ (s.ring r).roster, m.station = h → m.silence ≠ some 0) →
    exec (.silenceExpiry r h) s = .next s

/-- The silence timer of a member. -/
def Obligations.SilenceExpiryEvicts : Prop := Part.SilenceExpiryRemoves ∧ Part.SilenceNotRunOut

/-- A drain timer that runs out closes the ring with reason 1, dropping the members still on the roster; everything else of
the ring record keeps its value. A drain timer that has not run out does nothing (log 7). -/
def Obligations.DrainExpiryCloses : Prop :=
  ∀ (r : RingIdx) (s : State),
    ((s.ring r).drain = some 0 → s.lpc.slot = .idle →
      exec (.drainExpiry r) s = .next
        ((s.modRing r fun g => { g with state := .closed, announcePending := false, roster := [], drain := none }).post
          { kind := .ringClosed, index := BitVec.ofNat 8 r.val, reason := 1,
            value := BitVec.ofNat 32 (s.ring r).roster.length })) ∧
    ((s.ring r).drain ≠ some 0 → exec (.drainExpiry r) s = .next s)

/-- After a removal the reclaim point of a ring is the lowest mark left, or with an empty roster the tail, or with retain on
unchanged; the commit point follows a reclaim point above it. -/
def Sys2Proof.Part.ReclaimRecomputed : Prop :=
  ∀ (g : Ring),
    (g.roster = [] → g.retain = true → g.recompute.reclaim = g.reclaim) ∧
    (g.roster = [] → g.retain = false → g.recompute.reclaim = g.tail) ∧
    (∀ m ∈ g.roster, (g.recompute.reclaim - g.reclaim).toNat ≤ (m.mark - g.reclaim).toNat) ∧
    (g.roster ≠ [] → ∃ m ∈ g.roster, g.recompute.reclaim = m.mark) ∧
    g.recompute.commit = (if seqBefore g.commit g.recompute.reclaim then g.recompute.reclaim else g.commit) ∧
    g.recompute = { g with reclaim := g.recompute.reclaim, commit := g.recompute.commit }

/-- In a ring whose points lie in order within its slot count (R17), the recomputed points lie in order again: reclaim point,
every release mark, commit point, tail; and neither point falls. -/
def Sys2Proof.Part.RecomputeKeepsPointOrder : Prop :=
  ∀ (g : Ring), (g.tail - g.reclaim).toNat ≤ 512 → (g.commit - g.reclaim).toNat ≤ (g.tail - g.reclaim).toNat →
    (∀ m ∈ g.roster, (m.mark - g.reclaim).toNat ≤ (g.commit - g.reclaim).toNat) →
    let h := g.recompute
    (h.tail - h.reclaim).toNat ≤ (g.tail - g.reclaim).toNat ∧ (h.commit - h.reclaim).toNat ≤ (h.tail - h.reclaim).toNat ∧
    (∀ m ∈ h.roster, (m.mark - h.reclaim).toNat ≤ (h.commit - h.reclaim).toNat) ∧
    (h.reclaim - g.reclaim).toNat ≤ (g.tail - g.reclaim).toNat ∧ (g.commit - g.reclaim).toNat ≤ (h.commit - g.reclaim).toNat

/-- The recomputation of a ring's points. -/
def Obligations.RingPointsRecomputed : Prop := Part.ReclaimRecomputed ∧ Part.RecomputeKeepsPointOrder

/-! ### Receiving (sections 8.5, 10.2; chapters 2, 3, 6) -/

/-- The frame of a frame row. -/
def Sys2Proof.Instr.arrival : Instr → Option (FrameKind × Arrival)
  | .reset _ | .resetRelease _ _ | .start | .startCompletion | .openRing _ _ _ _ | .advance _ _ => none
  | .advanceCompletion | .retract _ _ | .withdraw _ _ | .ringStatus _ _ | .join _ _ _ _ | .leave _ => none
  | .flush _ | .flushAll | .dismiss _ | .subStatus _ _ | .accept _ | .retire _ _ | .registerWrite _ _ _ => none
  | .ntc0Read _ | .localMemoryAccess _ _ _ _ | .arbitration _ | .tagGrant | .retryLineMove | .deadlineExpiry _ => none
  | .keepaliveExpiry _ | .pollExpiry _ | .silenceExpiry _ _ | .drainExpiry _ => none
  | .helloFrame a => some (.hello, a)
  | .helloRosterRemoval a => some (.hello, a)
  | .announceFrame a => some (.announce, a)
  | .requestFrame .join a => some (.join, a)
  | .requestFrame .fetch a => some (.fetch, a)
  | .requestFrame .pull a => some (.pull, a)
  | .leaveFrame a => some (.leave, a)
  | .releaseFrame a => some (.release, a)
  | .evictFrame a => some (.evict, a)
  | .welcomeFrame a => some (.welcome, a)
  | .refuseFrame a => some (.refuse, a)
  | .listingFrame a => some (.listing, a)
  | .payloadFrame a => some (.payload, a)
  | .serveJoin | .serveFetch | .servePull | .pullStart | .chunkIssue | .blockGrantRound | .lineWaitRound => none
  | .delivery | .undefinedCommandCode _ => none

/-- Checks 2 to 9 of R194 on a frame of a defined kind. -/
def Sys2Proof.Machine.wellFormed (k : FrameKind) (a : Arrival) : Prop :=
  a.key.toNat = 32 * kindClass k + a.header.source.toNat ∧
  (a.header.broadcast = true ↔ k = .hello ∨ k = .announce) ∧
  a.body.length = (if k = .listing then 16 * a.header.count.toNat else if k = .payload then a.header.length.toNat else 0) ∧
  (k = .announce ∨ k = .welcome ∨ k = .listing → a.tail.state = 1 ∨ a.tail.state = 2) ∧
  (k = .welcome → a.tail.slotCode.toNat ≤ 5) ∧
  (k = .fetch ∨ k = .listing → a.header.count.toNat ≤ 16) ∧
  (k = .listing → ∀ (n : Nat) (im : Image) (fl : Byte), (parseImages a.body)[n]? = some (im, fl) →
    im.seq = a.header.seq + BitVec.ofNat 32 n ∧ im.length.toNat ≤ 4096 ∧ fl.toNat < 4) ∧
  (k = .pull ∨ k = .payload → a.header.count.toNat ≤ 15 ∧ 1 ≤ a.header.length.toNat ∧ a.header.length.toNat ≤ 256 ∧
    a.header.count.toNat * 256 + a.header.length.toNat ≤ 4096) ∧
  (k = .refuse → 1 ≤ a.header.reason.toNat ∧ a.header.reason.toNat ≤ 6)

/-- The receive filter accepts a frame exactly when the station is RUNNING, the frame check passes, the source is another
station, the frame is well formed, and its kind's step lets it in. -/
def Sys2Proof.Part.ReceiveFilter : Prop :=
  ∀ (s : State) (k : FrameKind) (a : Arrival), s.accepts k a = true ↔
    s.lpc.state = .running ∧ a.intact = true ∧ a.header.source ≠ s.lpc.stationNumber ∧ wellFormed k a ∧
    (k = .announce → ∃ i, (s.sub i).state ≠ .free ∧ (s.sub i).producer = a.header.source ∧
      (s.sub i).ring.val = a.header.ring.toNat) ∧
    (k ≠ .hello → k ≠ .announce → a.header.dest = s.lpc.stationNumber)

/-- A frame that the receive filter discards changes nothing. -/
def Sys2Proof.Part.DiscardedFrameChangesNothing : Prop :=
  ∀ (c : Instr) (k : FrameKind) (a : Arrival) (s : State), c.arrival = some (k, a) → s.accepts k a = false →
    exec c s = .next s

/-- The receive filter, and what it discards. -/
def Obligations.ReceiveFilterDecides : Prop := Part.ReceiveFilter ∧ Part.DiscardedFrameChangesNothing

/-- An accepted HELLO posts PEER_RESTARTED and ends every live subscription to its sender with reason RESTARTED, the
undelivered count KT − DP where it was welcomed. -/
def Sys2Proof.Part.HelloEndsSubscriptions : Prop :=
  ∀ (a : Arrival) (s : State), s.accepts .hello a = true → s.lpc.notices.length < 64 →
    ∃ t later, exec (.helloFrame a) s = .next t ∧
      t.lpc.notices = s.lpc.notices ++ { kind := .peerRestarted, index := 0, reason := 0,
                                         value := a.header.source.setWidth 32 } :: later ∧
      (∀ i, (s.sub i).producer = a.header.source →
        ((s.sub i).state = .joining ∨ (s.sub i).state = .active ∨ (s.sub i).state = .finishing ∨ (s.sub i).state = .leaving) →
        (t.sub i).state = .ended ∧ (t.sub i).reason = .restarted ∧
        (t.sub i).undelivered = (if (s.sub i).welcomed then (s.sub i).kt - (s.sub i).dp else 0) ∧
        (t.sub i).rm = (s.sub i).rm ∧ (t.sub i).dp = (s.sub i).dp ∧ (t.sub i).kt = (s.sub i).kt) ∧
      t.pub = s.pub

/-- PUB's step for an accepted HELLO leaves the sender in no roster, keeps every other member, and touches no ring that did
not hold it. -/
def Sys2Proof.Part.HelloLeavesRosters : Prop :=
  ∀ (a : Arrival) (s : State), s.accepts .hello a = true →
    ∃ t, exec (.helloRosterRemoval a) s = .next t ∧
      (∀ r m, m ∈ (t.ring r).roster → m.station ≠ a.header.source ∧ m ∈ (s.ring r).roster) ∧
      (∀ r m, m ∈ (s.ring r).roster → m.station ≠ a.header.source → m ∈ (t.ring r).roster) ∧
      (∀ r, (∀ m ∈ (s.ring r).roster, m.station ≠ a.header.source) → t.ring r = s.ring r) ∧
      t.subs = s.subs ∧ t.dpc = s.dpc ∧ t.rqt = s.rqt ∧ t.pdu = s.pdu ∧ t.liu = s.liu ∧ t.memory = s.memory

/-- The two steps of an accepted HELLO, which are two rows (log 21). -/
def Obligations.HelloOutcomes : Prop := Part.HelloEndsSubscriptions ∧ Part.HelloLeavesRosters

/-- The one record that is not FREE and names a producer and ring. -/
def Sys2Proof.Machine.State.follows (s : State) (i : SubIdx) (h : Header) : Prop :=
  (s.sub i).state ≠ .free ∧ (s.sub i).producer = h.source ∧ (s.sub i).ring.val = h.ring.toNat ∧
  ∀ j, (s.sub j).state ≠ .free → (s.sub j).producer = h.source → (s.sub j).ring.val = h.ring.toNat → j = i

/-- An accepted ANNOUNCE or EVICT whose sender incarnation differs from the recorded one ends an ACTIVE or FINISHING
subscription, or a welcomed one in LEAVING, with reason RESTARTED; one of a newer epoch ends it with reason EPOCH; one of an
older epoch changes nothing. -/
def Sys2Proof.Part.IncarnationAndEpochChecks : Prop :=
  ∀ (c : Instr) (a : Arrival) (i : SubIdx) (s : State),
    (c = .announceFrame a ∧ s.accepts .announce a = true ∨ c = .evictFrame a ∧ s.accepts .evict a = true) →
    s.follows i a.header →
    ((s.sub i).state = .active ∨ (s.sub i).state = .finishing ∨ (s.sub i).state = .leaving ∧ (s.sub i).welcomed = true) →
    let ends (e : EndReason) : Prop := ∃ t, exec c s = .next t ∧ (t.sub i).state = .ended ∧ (t.sub i).reason = e ∧
      (t.sub i).dp = (s.sub i).dp ∧ (t.sub i).kt = (s.sub i).kt
    (a.header.incarnation ≠ (s.sub i).incarnation → ends .restarted) ∧
    (a.header.incarnation = (s.sub i).incarnation →
      (1 ≤ (a.header.epoch - (s.sub i).epoch).toNat → (a.header.epoch - (s.sub i).epoch).toNat < 32768 → ends .epoch) ∧
      (32768 < (a.header.epoch - (s.sub i).epoch).toNat → exec c s = .next s))

/-- An ANNOUNCE or EVICT for a subscription in JOINING, in ENDED, or in LEAVING before its WELCOME changes nothing. -/
def Sys2Proof.Part.UnexaminedFrameDiscarded : Prop :=
  ∀ (c : Instr) (a : Arrival) (i : SubIdx) (s : State), (c = .announceFrame a ∨ c = .evictFrame a) →
    s.follows i a.header →
    ((s.sub i).state = .joining ∨ (s.sub i).state = .ended ∨ (s.sub i).state = .leaving ∧ (s.sub i).welcomed = false) →
    exec c s = .next s

/-- An ANNOUNCE of the recorded incarnation and epoch, showing OPEN, reaches an ACTIVE subscription: at the recorded revision
KT becomes the higher of KT and the tail; at a newer revision KT becomes the tail and the revision is adopted; at an older
one both stay; the poll timer is restarted, and the subscription stays ACTIVE. -/
def Sys2Proof.Part.AnnounceMovesKnownTail : Prop :=
  ∀ (a : Arrival) (i : SubIdx) (s : State), s.accepts .announce a = true → s.follows i a.header →
    (s.sub i).state = .active → a.header.incarnation = (s.sub i).incarnation → a.header.epoch = (s.sub i).epoch →
    a.tail.state = 1 →
    ∃ t, exec (.announceFrame a) s = .next t ∧ (t.sub i).state = .active ∧
      (t.sub i).poll = some s.config.pollInterval ∧
      (a.tail.revision = (s.sub i).revision → (t.sub i).revision = (s.sub i).revision ∧
        (t.sub i).kt = if seqBefore (s.sub i).kt a.tail.tail then a.tail.tail else (s.sub i).kt) ∧
      (1 ≤ (a.tail.revision - (s.sub i).revision).toNat → (a.tail.revision - (s.sub i).revision).toNat < 32768 →
        (t.sub i).kt = a.tail.tail ∧ (t.sub i).revision = a.tail.revision) ∧
      (32768 < (a.tail.revision - (s.sub i).revision).toNat →
        (t.sub i).kt = (s.sub i).kt ∧ (t.sub i).revision = (s.sub i).revision) ∧
      (t.sub i).rm = (s.sub i).rm ∧ (t.sub i).dp = (s.sub i).dp ∧ (t.sub i).pp = (s.sub i).pp ∧
      t.pub = s.pub ∧ t.pdu = s.pdu ∧ t.lpc = s.lpc ∧ t.memory = s.memory

/-- An ANNOUNCE that shows WITHDRAWING takes an ACTIVE subscription to FINISHING with the frame's tail as its final tail and
its KT, and posts SUB_FINISHING; it may complete at once. -/
def Sys2Proof.Part.AnnounceEntersFinishing : Prop :=
  ∀ (a : Arrival) (i : SubIdx) (s : State), s.accepts .announce a = true → s.follows i a.header →
    (s.sub i).state = .active → a.header.incarnation = (s.sub i).incarnation → a.header.epoch = (s.sub i).epoch →
    a.tail.state = 2 → s.lpc.notices.length < 63 →
    ∃ t later, exec (.announceFrame a) s = .next t ∧
      ((t.sub i).state = .finishing ∨ (t.sub i).state = .ended ∧ (t.sub i).reason = .closed) ∧
      (t.sub i).finalTail = some a.tail.tail ∧ (t.sub i).kt = a.tail.tail ∧ (t.sub i).poll = none ∧
      t.lpc.notices = s.lpc.notices ++ { kind := .subFinishing, index := BitVec.ofNat 8 i.val, reason := 0,
                                         value := a.tail.tail } :: later

/-- An ANNOUNCE that passes the checks. -/
def Obligations.AnnounceOutcomes : Prop := Part.AnnounceMovesKnownTail ∧ Part.AnnounceEntersFinishing

/-- An accepted EVICT of the recorded incarnation and epoch ends an examined subscription with reason EVICTED. -/
def Sys2Proof.Part.EvictEndsSubscription : Prop :=
  ∀ (a : Arrival) (i : SubIdx) (s : State), s.accepts .evict a = true → s.follows i a.header →
    ((s.sub i).state = .active ∨ (s.sub i).state = .finishing ∨ (s.sub i).state = .leaving ∧ (s.sub i).welcomed = true) →
    a.header.incarnation = (s.sub i).incarnation → a.header.epoch = (s.sub i).epoch →
    ∃ t, exec (.evictFrame a) s = .next t ∧ (t.sub i).state = .ended ∧ (t.sub i).reason = .evicted ∧
      (t.sub i).undelivered = (if (s.sub i).welcomed then (s.sub i).kt - (s.sub i).dp else 0) ∧ t.liu.replies = s.liu.replies

/-- The checks of an ANNOUNCE and an EVICT, and the EVICT that passes them. -/
def Obligations.SubscriptionFrameChecks : Prop :=
  Part.IncarnationAndEpochChecks ∧ Part.UnexaminedFrameDiscarded ∧ Part.EvictEndsSubscription

/-- A request that the filter accepts joins the tail of the Serve Queue, and is discarded when it holds 16. -/
def Obligations.RequestEntersServeQueue : Prop :=
  ∀ (k : RequestKind) (a : Arrival) (s : State), s.accepts (requestFrameKind k) a = true →
    (s.pub.serveQueue.length < 16 → ∃ e, exec (.requestFrame k a) s =
        .next { s with pub := { s.pub with serveQueue := s.pub.serveQueue ++ [e] } } ∧
      e.source = a.header.source ∧ e.incarnation = a.header.incarnation ∧ e.ring.val = a.header.ring.toNat ∧
      e.epoch = a.header.epoch ∧ e.tag = a.header.tag ∧ e.useCount = a.header.useCount ∧
      (k = .join → e.body = .join a.header.newest) ∧ (k = .fetch → e.body = .fetch a.header.seq a.header.count.toNat) ∧
      (k = .pull → e.body = .pull a.header.seq a.header.count.toNat a.header.length.toNat)) ∧
    (16 ≤ s.pub.serveQueue.length → exec (.requestFrame k a) s = .next s)

/-- A LEAVE from a member of an OPEN ring, with epoch 0 or the ring's, removes it with MEMBER_LEFT; a LEAVE for a CLOSED ring,
of another epoch, or from a station with no entry, changes nothing. -/
def Sys2Proof.Part.LeaveFrameRemovesMember : Prop :=
  ∀ (a : Arrival) (r : RingIdx) (s : State), s.accepts .leave a = true → a.header.ring.toNat = r.val →
    (((s.ring r).state = .closed ∨ (a.header.epoch ≠ 0 ∧ a.header.epoch ≠ (s.ring r).epoch) ∨
        ∀ m ∈ (s.ring r).roster, m.station ≠ a.header.source) → exec (.leaveFrame a) s = .next s) ∧
    ((s.ring r).state = .opened → (a.header.epoch = 0 ∨ a.header.epoch = (s.ring r).epoch) →
      rosterOrdered (s.ring r).roster →
      ∀ m ∈ (s.ring r).roster, m.station = a.header.source → m.incarnation = a.header.incarnation →
        exec (.leaveFrame a) s = .next ((s.modRing r fun g =>
          ({ g with roster := g.roster.filter fun x => x.station != a.header.source } : Ring).recompute).post
            { kind := .memberLeft, index := BitVec.ofNat 8 r.val, reason := 0, value := a.header.source.setWidth 32 }))

/-- A LEAVE that empties the roster of a WITHDRAWING ring closes it: MEMBER_LEFT, then RING_CLOSED with reason 0, value 0. -/
def Sys2Proof.Part.LastLeaveClosesWithdrawingRing : Prop :=
  ∀ (a : Arrival) (r : RingIdx) (m : Member) (s : State), s.accepts .leave a = true → a.header.ring.toNat = r.val →
    (s.ring r).state = .withdrawing → (s.ring r).roster = [m] → m.station = a.header.source →
    m.incarnation = a.header.incarnation → (a.header.epoch = 0 ∨ a.header.epoch = (s.ring r).epoch) →
    s.lpc.notices.length < 63 →
    ∃ t, exec (.leaveFrame a) s = .next t ∧ (t.ring r).state = .closed ∧ (t.ring r).roster = [] ∧
      (t.ring r).drain = none ∧ (t.ring r).announcePending = false ∧ (t.ring r).tail = (s.ring r).tail ∧
      (t.ring r).epoch = (s.ring r).epoch ∧
      t.lpc.notices = s.lpc.notices ++
        [{ kind := .memberLeft, index := BitVec.ofNat 8 r.val, reason := 0, value := a.header.source.setWidth 32 },
         { kind := .ringClosed, index := BitVec.ofNat 8 r.val, reason := 0, value := 0 }] ∧
      (∀ q, q ≠ r → t.ring q = s.ring q) ∧ t.subs = s.subs ∧ t.liu = s.liu ∧ t.memory = s.memory

/-- A LEAVE frame. -/
def Obligations.LeaveFrameOutcomes : Prop := Part.LeaveFrameRemovesMember ∧ Part.LastLeaveClosesWithdrawingRing

/-- A RELEASE of another epoch than the ring's changes nothing. From a member, its mark is adopted when it lies in [release
mark, commit point] and ignored otherwise, and the silence timer is restarted. From a station with no entry it draws an
EVICT. -/
def Obligations.ReleaseFrameOutcomes : Prop :=
  ∀ (a : Arrival) (r : RingIdx) (s : State), s.accepts .release a = true → a.header.ring.toNat = r.val →
    (a.header.epoch ≠ (s.ring r).epoch → exec (.releaseFrame a) s = .next s) ∧
    (a.header.epoch = (s.ring r).epoch →
      ((∀ m ∈ (s.ring r).roster, m.station ≠ a.header.source) → ∃ f, exec (.releaseFrame a) s = .next (s.placeOneOff f) ∧
        f.kind = .evict ∧ f.header.dest = a.header.source ∧ f.header.ring.toNat = r.val ∧
        f.header.epoch = (s.ring r).epoch) ∧
      (rosterOrdered (s.ring r).roster → ∀ m ∈ (s.ring r).roster, m.station = a.header.source →
        m.incarnation = a.header.incarnation →
        ∃ t n, exec (.releaseFrame a) s = .next t ∧ n ∈ (t.ring r).roster ∧ n.station = a.header.source ∧
          n.silence = some s.config.silenceLimit ∧ n.incarnation = m.incarnation ∧
          ((a.header.seq - m.mark).toNat ≤ ((s.ring r).commit - m.mark).toNat → n.mark = a.header.seq) ∧
          (((s.ring r).commit - m.mark).toNat < (a.header.seq - m.mark).toNat → n.mark = m.mark ∧
            (t.ring r).reclaim = (s.ring r).reclaim ∧ (t.ring r).commit = (s.ring r).commit) ∧
          (∀ q, q ≠ r → t.ring q = s.ring q) ∧ (t.ring r).tail = (s.ring r).tail ∧
          t = { s with pub := t.pub }))

/-! ### Replies (chapters 2 to 5) -/

/-- A reply answers the request that tag `g` is bound to (R118). -/
def Sys2Proof.Machine.State.answers (s : State) (k : FrameKind) (h : Header) (g : TagIdx) (b : Binding) : Prop :=
  h.tag.toNat = g.val ∧ (s.tag g).bound = some b ∧ (b.deadline.isSome = true ∨ 2 ≤ b.attempts) ∧
  h.useCount = (s.tag g).useCount ∧ h.source = (s.sub b.sub).producer ∧ replyFits k b.request = true

/-- A reply that answers no bound tag by the tests of R118 changes nothing. -/
def Obligations.UnmatchedReplyDiscarded : Prop :=
  ∀ (c : Instr) (k : FrameKind) (a : Arrival) (s : State), c.arrival = some (k, a) →
    (k = .welcome ∨ k = .refuse ∨ k = .listing ∨ k = .payload) → (¬ ∃ g b, s.answers k a.header g b) →
    exec c s = .next s

/-- A WELCOME that answers the JOIN of a subscription in JOINING: RM, DP, PP and FP take the start, KT the tail (AP rises from
the start by what the fetch decision asks at once); OPEN leads to ACTIVE and WITHDRAWING to FINISHING, or to ENDED(CLOSED) when
that completes at once. Before grants, fetch decision and completion test (state `u`) its tag is FREE, its RESERVED line is
ASSIGNED to the start's group with its entries EMPTY, and SUB_ACTIVE is posted, and then SUB_FINISHING when WITHDRAWING. -/
def Sys2Proof.Part.WelcomeInJoining : Prop :=
  ∀ (a : Arrival) (g : TagIdx) (b : Binding) (s : State), s.accepts .welcome a = true → s.answers .welcome a.header g b →
    (s.sub b.sub).state = .joining →
    ∃ u t, exec (.welcomeFrame a) s = .next t ∧ t = ((runGrants u).evaluate [b.sub]).finishingTest b.sub ∧
      (u.tag g).bound = none ∧
      (∀ l, s.dpc.lines.get l = .reserved b.sub →
        u.dpc.lines.get l = .assigned b.sub (a.header.seq &&& 0xFFFFFFF8) (Vector.replicate 8 Entry.empty)) ∧
      (∀ l, s.dpc.lines.get l ≠ .reserved b.sub → u.dpc.lines.get l = s.dpc.lines.get l) ∧
      (s.lpc.notices.length < 63 → u.lpc = { s.lpc with notices := s.lpc.notices ++
        { kind := .subActive, index := BitVec.ofNat 8 b.sub.val, reason := 0, value := a.header.seq } ::
        (if a.tail.state = 2 then [{ kind := .subFinishing, index := BitVec.ofNat 8 b.sub.val, reason := 0,
                                     value := a.tail.tail }] else []) }) ∧
      (t.sub b.sub).welcomed = true ∧
      (t.sub b.sub).incarnation = a.header.incarnation ∧ (t.sub b.sub).epoch = a.header.epoch ∧
      (t.sub b.sub).revision = a.tail.revision ∧ (t.sub b.sub).rm = a.header.seq ∧ (t.sub b.sub).dp = a.header.seq ∧
      (t.sub b.sub).pp = a.header.seq ∧ (t.sub b.sub).fp = a.header.seq ∧ (t.sub b.sub).kt = a.tail.tail ∧
      (a.tail.state = 1 → (t.sub b.sub).state = .active ∧ (t.sub b.sub).poll = some s.config.pollInterval ∧
        (t.sub b.sub).keepalive = some s.config.keepalive) ∧
      (a.tail.state = 2 → (t.sub b.sub).finalTail = some a.tail.tail ∧ (t.sub b.sub).poll = none ∧
        ((t.sub b.sub).state = .finishing ∨ (t.sub b.sub).state = .ended ∧ (t.sub b.sub).reason = .closed)) ∧
      t.pub = s.pub ∧ t.pdu.fill = s.pdu.fill ∧ t.memory = s.memory

/-- No request of subscription `i` is bound but by tag `g`, and none waits for a tag. -/
def Sys2Proof.Machine.State.onlyRequest (s : State) (i : SubIdx) (g : TagIdx) : Prop :=
  (s.sub i).claims = [] ∧ ∀ u x, u ≠ g → (s.tag u).bound = some x → x.sub ≠ i

/-- A WELCOME that answers the JOIN of a subscription in LEAVING (R43): it is recorded as welcomed, with the incarnation and the
epoch, and nothing else of it changes (state `u`); then the leave completes as LEFT. -/
def Sys2Proof.Part.WelcomeInLeaving : Prop :=
  ∀ (a : Arrival) (g : TagIdx) (b : Binding) (s : State), s.accepts .welcome a = true → s.answers .welcome a.header g b →
    (s.sub b.sub).state = .leaving →
    ∃ u t, exec (.welcomeFrame a) s = .next t ∧ t = (settle u).leaveTest b.sub ∧ u.tag g = { s.tag g with bound := none } ∧
      u.sub b.sub = { s.sub b.sub with welcomed := true, incarnation := a.header.incarnation, epoch := a.header.epoch } ∧
      (∀ j, j ≠ b.sub → u.sub j = s.sub j) ∧ u.lpc = s.lpc ∧ u.liu = s.liu ∧ u.pub = s.pub ∧ u.dpc = s.dpc ∧
      u.pdu = s.pdu ∧ u.memory = s.memory ∧
      (s.onlyRequest b.sub g → (t.sub b.sub).state = .ended ∧ (t.sub b.sub).reason = .left) ∧ t.pub = s.pub

/-- A WELCOME, in JOINING and in LEAVING. The order of what follows it within the event is the model's (log 9). -/
def Obligations.WelcomeStartsSubscription : Prop := Part.WelcomeInJoining ∧ Part.WelcomeInLeaving

/-- A REFUSE that answers a JOIN ends a subscription in JOINING by the refusal's reason, with undelivered count 0 when it was
never welcomed. -/
def Sys2Proof.Part.RefuseEndsJoining : Prop :=
  ∀ (a : Arrival) (g : TagIdx) (b : Binding) (newest : Bool) (s : State), s.accepts .refuse a = true →
    s.answers .refuse a.header g b → b.request = .join newest → (s.sub b.sub).state = .joining →
    ∃ t, exec (.refuseFrame a) s = .next t ∧ (t.sub b.sub).state = .ended ∧
      (t.sub b.sub).reason = (if a.header.reason = 2 then .refusedFull else if a.header.reason = 1 then .refusedClosed
        else .fault) ∧
      ((s.sub b.sub).welcomed = false → (t.sub b.sub).undelivered = 0) ∧ t.pub = s.pub

/-- A REFUSE that answers the JOIN of a subscription in LEAVING (R43) ends that request and changes nothing else of the
subscription (state `u`); then the leave completes as LEFT. -/
def Sys2Proof.Part.RefuseInLeaving : Prop :=
  ∀ (a : Arrival) (g : TagIdx) (b : Binding) (newest : Bool) (s : State), s.accepts .refuse a = true →
    s.answers .refuse a.header g b → b.request = .join newest → (s.sub b.sub).state = .leaving →
    ∃ u t, exec (.refuseFrame a) s = .next t ∧ t = (settle u).leaveTest b.sub ∧ u.tag g = { s.tag g with bound := none } ∧
      u.subs = s.subs ∧ u.lpc = s.lpc ∧ u.liu = s.liu ∧ u.pub = s.pub ∧ u.dpc = s.dpc ∧ u.pdu = s.pdu ∧
      u.memory = s.memory ∧
      (s.onlyRequest b.sub g → (t.sub b.sub).state = .ended ∧ (t.sub b.sub).reason = .left) ∧ t.pub = s.pub

/-- A reply to a FETCH or PULL of another incarnation ends its subscription RESTARTED; of a newer epoch EPOCH; of an older epoch
FAULT; a REFUSE that passes ends it by the refusal's reason (STALE_EPOCH with the recorded epoch as FAULT: the model's choice,
log 20). -/
def Sys2Proof.Part.RefusedRequestEndsSubscription : Prop :=
  ∀ (c : Instr) (k : FrameKind) (a : Arrival) (g : TagIdx) (b : Binding) (s : State), c.arrival = some (k, a) →
    s.accepts k a = true → s.answers k a.header g b → b.request.isJoin = false →
    let ends (e : EndReason) : Prop := ∃ t, exec c s = .next t ∧ (t.sub b.sub).state = .ended ∧ (t.sub b.sub).reason = e ∧
      (t.sub b.sub).dp = (s.sub b.sub).dp ∧ t.pub = s.pub
    (a.header.incarnation ≠ (s.sub b.sub).incarnation → ends .restarted) ∧
    (a.header.incarnation = (s.sub b.sub).incarnation →
      (1 ≤ (a.header.epoch - (s.sub b.sub).epoch).toNat → (a.header.epoch - (s.sub b.sub).epoch).toNat < 32768 →
        ends .epoch) ∧
      (32768 < (a.header.epoch - (s.sub b.sub).epoch).toNat → ends .fault) ∧
      (a.header.epoch = (s.sub b.sub).epoch → k = .refuse →
        ends (if a.header.reason = 3 then .evicted else if a.header.reason = 1 then .closed else .fault)))

/-- Replies that end a subscription. STALE_EPOCH with the recorded epoch ends it as FAULT by the model's choice (log 20). -/
def Obligations.RefusalOutcomes : Prop :=
  Part.RefuseEndsJoining ∧ Part.RefuseInLeaving ∧ Part.RefusedRequestEndsSubscription

/-- A LISTING that answers a FETCH of the current flush generation and serves all of its range, which begins at FP and ends at
AP: every asked entry becomes HELD and FP rises to AP (state `u`); then the FETCH ends. The subscription stays ACTIVE, KT is
the higher of KT and the tail, and the poll timer is restarted. -/
def Sys2Proof.Part.ListingFillsAskedEntries : Prop :=
  ∀ (a : Arrival) (g : TagIdx) (i : SubIdx) (n : Nat) (dl : Timer) (att : Nat) (s : State), s.accepts .listing a = true →
    s.answers .listing a.header g { sub := i, request := .fetch (s.sub i).fp n (s.sub i).generation, attempts := att,
                                    deadline := dl } →
    (s.sub i).state = .active → a.header.incarnation = (s.sub i).incarnation → a.header.epoch = (s.sub i).epoch →
    a.tail.state = 1 → a.tail.revision = (s.sub i).revision → a.header.seq = (s.sub i).fp → a.header.count.toNat = n →
    1 ≤ n → (s.sub i).ap = (s.sub i).fp + BitVec.ofNat 32 n →
    (∀ k, k < n → s.entryAt i ((s.sub i).fp + BitVec.ofNat 32 k) = .asked) →
    ∃ u t : State, exec (.listingFrame a) s = .next t ∧ t = u.finishFetch i ∧
      (u.tag g).bound = none ∧ (u.sub i).fp = (s.sub i).ap ∧ (u.sub i).ap = (s.sub i).ap ∧
      (∀ k, k < n → ∃ im, u.entryAt i ((s.sub i).fp + BitVec.ofNat 32 k) = .held im ∧
        im.seq = (s.sub i).fp + BitVec.ofNat 32 k) ∧
      (t.sub i).state = .active ∧ (t.sub i).pp = (s.sub i).pp ∧ (t.sub i).dp = (s.sub i).dp ∧
      (t.sub i).rm = (s.sub i).rm ∧
      (t.sub i).kt = (if seqBefore (s.sub i).kt a.tail.tail then a.tail.tail else (s.sub i).kt) ∧
      (t.sub i).poll = some s.config.pollInterval ∧ t.pub = s.pub ∧ t.pdu.fill = s.pdu.fill ∧ t.memory = s.memory

/-- An arriving LISTING answers the FETCH of `n` descriptors from FP up to AP of an ACTIVE subscription, under the current flush
generation, incarnation and epoch: its tag is `g`, the asked entries are ASKED, and DP, PP and FP stand in this order within the
largest depth (R26, R59). -/
def Sys2Proof.Machine.State.listingFor (s : State) (a : Arrival) (g : TagIdx) (i : SubIdx) (n : Nat) : Prop :=
  s.accepts .listing a = true ∧
  (∃ dl att, s.answers .listing a.header g
    { sub := i, request := .fetch (s.sub i).fp n (s.sub i).generation, attempts := att, deadline := dl }) ∧
  (s.sub i).state = .active ∧ a.header.incarnation = (s.sub i).incarnation ∧ a.header.epoch = (s.sub i).epoch ∧
  a.header.seq = (s.sub i).fp ∧ n ≤ 16 ∧ (s.sub i).ap = (s.sub i).fp + BitVec.ofNat 32 n ∧
  ((s.sub i).fp - (s.sub i).dp).toNat ≤ 64 ∧ ((s.sub i).fp - (s.sub i).pp).toNat ≤ ((s.sub i).fp - (s.sub i).dp).toNat ∧
  ∀ k, k < n → s.entryAt i ((s.sub i).fp + BitVec.ofNat 32 k) = .asked

/-- A LISTING that serves fewer than its FETCH asked, at the recorded revision or with a tail not below what it serves: what it
serves becomes HELD, what it does not serve is asked no more, FP and AP stand at the first sequence it did not serve (R69), and
the tail is applied by its revision (R55; state `u`); then the FETCH ends. -/
def Sys2Proof.Part.ShortListingCutsAsked : Prop :=
  ∀ (a : Arrival) (g : TagIdx) (i : SubIdx) (n : Nat) (s : State), s.listingFor a g i n → a.tail.state = 1 →
    a.header.count.toNat < n →
    (a.tail.revision = (s.sub i).revision ∨
      seqBefore a.tail.tail ((s.sub i).fp + BitVec.ofNat 32 a.header.count.toNat) = false) →
    ∃ u : State, exec (.listingFrame a) s = .next (u.finishFetch i) ∧ (u.tag g).bound = none ∧
      (u.sub i).fp = (s.sub i).fp + BitVec.ofNat 32 a.header.count.toNat ∧ (u.sub i).ap = (u.sub i).fp ∧
      (∀ k, k < a.header.count.toNat → ∃ im, u.entryAt i ((s.sub i).fp + BitVec.ofNat 32 k) = .held im ∧
        im.seq = (s.sub i).fp + BitVec.ofNat 32 k) ∧
      (∀ k, a.header.count.toNat ≤ k → k < n → u.entryAt i ((s.sub i).fp + BitVec.ofNat 32 k) = .empty) ∧
      (a.tail.revision = (s.sub i).revision →
        (u.sub i).kt = if seqBefore (s.sub i).kt a.tail.tail then a.tail.tail else (s.sub i).kt) ∧
      (1 ≤ (a.tail.revision - (s.sub i).revision).toNat → (a.tail.revision - (s.sub i).revision).toNat < 32768 →
        (u.sub i).kt = a.tail.tail ∧ (u.sub i).revision = a.tail.revision) ∧
      (u.sub i).poll = some s.config.pollInterval ∧ (u.sub i).state = .active ∧ (u.sub i).pp = (s.sub i).pp ∧
      (u.sub i).dp = (s.sub i).dp ∧ (u.sub i).fetchesOut = (s.sub i).fetchesOut ∧ u.lpc = s.lpc ∧ u.liu = s.liu ∧
      u.pub = s.pub ∧ u.pdu = s.pdu ∧ u.memory = s.memory

/-- A LISTING that serves its whole FETCH under a newer revision: KT becomes its tail and the revision is adopted; what was
asked or held at or beyond a tail below AP is given up, and FP and AP stand at that tail (R55, R71; state `u`). One of an
older revision moves neither KT nor the revision. Then the FETCH ends. -/
def Sys2Proof.Part.ListingOfOtherRevision : Prop :=
  ∀ (a : Arrival) (g : TagIdx) (i : SubIdx) (n : Nat) (s : State), s.listingFor a g i n → a.tail.state = 1 →
    a.header.count.toNat = n →
    ∃ u : State, exec (.listingFrame a) s = .next (u.finishFetch i) ∧ (u.tag g).bound = none ∧
      (1 ≤ (a.tail.revision - (s.sub i).revision).toNat → (a.tail.revision - (s.sub i).revision).toNat < 32768 →
        (u.sub i).kt = a.tail.tail ∧ (u.sub i).revision = a.tail.revision ∧
        (seqBefore a.tail.tail (s.sub i).ap = false → (u.sub i).fp = (s.sub i).ap ∧ (u.sub i).ap = (s.sub i).ap) ∧
        (seqBefore a.tail.tail (s.sub i).ap = true → seqUpTo (s.sub i).pp a.tail.tail = true →
          (u.sub i).fp = a.tail.tail ∧ (u.sub i).ap = a.tail.tail ∧
          ∀ q, seqUpTo a.tail.tail q = true → ∀ im, u.entryAt i q ≠ .held im)) ∧
      (32768 < (a.tail.revision - (s.sub i).revision).toNat →
        (u.sub i).kt = (s.sub i).kt ∧ (u.sub i).revision = (s.sub i).revision ∧ (u.sub i).fp = (s.sub i).ap) ∧
      (u.sub i).poll = some s.config.pollInterval ∧ (u.sub i).state = .active ∧ (u.sub i).pp = (s.sub i).pp ∧
      (u.sub i).dp = (s.sub i).dp ∧ u.lpc = s.lpc ∧ u.liu = s.liu ∧ u.pub = s.pub ∧ u.pdu = s.pdu ∧ u.memory = s.memory

/-- A LISTING that shows WITHDRAWING is taken like any other, and then its subscription enters FINISHING with the frame's tail
as its final tail and its KT, the poll timer stopped and SUB_FINISHING posted (R39, R57, R71; state `u`); then the FETCH ends,
and the subscription may complete. -/
def Sys2Proof.Part.ListingEntersFinishing : Prop :=
  ∀ (a : Arrival) (g : TagIdx) (i : SubIdx) (n : Nat) (s : State), s.listingFor a g i n → a.tail.state = 2 →
    a.header.count.toNat = n → s.lpc.notices.length < 64 →
    ∃ u t : State, exec (.listingFrame a) s = .next t ∧ t = u.finishFetch i ∧ (u.tag g).bound = none ∧
      (u.sub i).state = .finishing ∧ (u.sub i).finalTail = some a.tail.tail ∧ (u.sub i).kt = a.tail.tail ∧
      (u.sub i).poll = none ∧ (u.sub i).pp = (s.sub i).pp ∧ (u.sub i).dp = (s.sub i).dp ∧
      (seqUpTo (s.sub i).ap a.tail.tail = true → (u.sub i).fp = (s.sub i).ap ∧ (u.sub i).ap = (s.sub i).ap) ∧
      u.lpc = { s.lpc with notices := s.lpc.notices ++
        [{ kind := .subFinishing, index := BitVec.ofNat 8 i.val, reason := 0, value := a.tail.tail }] } ∧
      u.liu = s.liu ∧ u.pub = s.pub ∧ u.pdu = s.pdu ∧ u.memory = s.memory ∧
      ((t.sub i).state = .finishing ∨ (t.sub i).state = .ended ∧ (t.sub i).reason = .closed) ∧ t.pub = s.pub

/-- A LISTING of an earlier flush generation ends its FETCH and brings nothing else (R67, R72): its tag becomes FREE, and the
FETCH ends from that state, in which every entry and pointer, KT, the revision and the poll timer are as before. While other
FETCHes are outstanding the count falls by one and the flush stays pending; the end of the last one completes it with
FLUSH_DONE, reason 0, where that notice is owed (R79). -/
def Sys2Proof.Part.StaleListingDropped : Prop :=
  ∀ (a : Arrival) (g : TagIdx) (i : SubIdx) (q : Seq) (n : Nat) (gen : Byte) (dl : Timer) (att : Nat) (s : State),
    s.accepts .listing a = true →
    s.answers .listing a.header g { sub := i, request := .fetch q n gen, attempts := att, deadline := dl } →
    gen ≠ (s.sub i).generation → (s.sub i).state = .active → a.header.incarnation = (s.sub i).incarnation →
    a.header.epoch = (s.sub i).epoch →
    ∃ u t : State, exec (.listingFrame a) s = .next t ∧ t = u.finishFetch i ∧
      u = { s with rqt := { s.rqt with tags := u.rqt.tags, queue := s.rqt.queue.filter (· ≠ g),
                                       retryLine := s.rqt.retryLine.filter (· ≠ g) } } ∧
      u.tag g = { s.tag g with bound := none } ∧ (∀ x, x ≠ g → u.tag x = s.tag x) ∧
      ((s.sub i).flushPending = true → 2 ≤ (s.sub i).fetchesOut →
        (t.sub i).fetchesOut = (s.sub i).fetchesOut - 1 ∧ (t.sub i).flushPending = true ∧
        t.lpc.notices = s.lpc.notices) ∧
      ((s.sub i).flushPending = true → (s.sub i).fetchesOut = 1 → (s.sub i).flushOwed = true →
        s.lpc.notices.length < 64 →
        (t.sub i).flushPending = false ∧ (t.sub i).flushOwed = false ∧
        ∃ later, t.lpc.notices = s.lpc.notices ++ { kind := .flushDone, index := BitVec.ofNat 8 i.val, reason := 0,
                                                    value := (s.sub i).generation.setWidth 32 } :: later) ∧
      (t.sub i).kt = (s.sub i).kt ∧ (t.sub i).revision = (s.sub i).revision ∧
      (t.sub i).pp = (s.sub i).pp ∧ (t.sub i).dp = (s.sub i).dp ∧ (t.sub i).poll = (s.sub i).poll ∧
      (t.sub i).state = .active ∧ t.pub = s.pub

/-- A LISTING. The order of what follows it within the event is the model's (logs 9, 10). -/
def Obligations.ListingOutcomes : Prop :=
  Part.ListingFillsAskedEntries ∧ Part.ShortListingCutsAsked ∧ Part.ListingOfOtherRevision ∧ Part.ListingEntersFinishing ∧
  Part.StaleListingDropped

/-- A PAYLOAD whose length differs from what its PULL asked ends an ACTIVE or FINISHING subscription with reason FAULT, and
writes no byte of memory, its block's among them (R94; state `u`); then comes what the end frees (log 9). -/
def Sys2Proof.Part.WrongLengthPayloadFaults : Prop :=
  ∀ (a : Arrival) (g : TagIdx) (i : SubIdx) (q : Seq) (c n blk : Nat) (dl : Timer) (att : Nat) (s : State),
    s.accepts .payload a = true →
    s.answers .payload a.header g { sub := i, request := .pull q c n blk, attempts := att, deadline := dl } →
    a.body.length ≠ n → ((s.sub i).state = .active ∨ (s.sub i).state = .finishing) →
    a.header.incarnation = (s.sub i).incarnation → a.header.epoch = (s.sub i).epoch →
    ∃ u t, exec (.payloadFrame a) s = .next t ∧ t = (settle u).leaveTest i ∧ u.memory = s.memory ∧
      (u.tag g).bound = none ∧ (u.sub i).state = .ended ∧ (u.sub i).reason = .fault ∧
      (u.sub i).dp = (s.sub i).dp ∧ u.liu = s.liu ∧ u.pub = s.pub ∧
      (t.sub i).state = .ended ∧ (t.sub i).reason = .fault ∧ (t.sub i).dp = (s.sub i).dp ∧ t.pub = s.pub

/-- A PAYLOAD of a wrong length in LEAVING: its PULL is abandoned with the discard of R106, and no byte of memory is written
(R94; state `u`); then comes what that frees (log 9). -/
def Sys2Proof.Part.WrongLengthPayloadInLeaving : Prop :=
  ∀ (a : Arrival) (g : TagIdx) (i : SubIdx) (q : Seq) (c n blk : Nat) (dl : Timer) (att : Nat) (s : State),
    s.accepts .payload a = true →
    s.answers .payload a.header g { sub := i, request := .pull q c n blk, attempts := att, deadline := dl } →
    a.body.length ≠ n → (s.sub i).state = .leaving →
    a.header.incarnation = (s.sub i).incarnation → a.header.epoch = (s.sub i).epoch →
    ∃ u, exec (.payloadFrame a) s = .next ((settle u).leaveTest i) ∧ u.tag g = { s.tag g with bound := none } ∧
      (∀ x, x ≠ g → u.tag x = s.tag x) ∧ s.pullAbandoned u i q ∧ (∀ j, j ≠ i → u.sub j = s.sub j) ∧ u.lpc = s.lpc ∧
      u.liu = s.liu ∧ u.pub = s.pub ∧ u.memory = s.memory

/-- A PAYLOAD of the length asked, for a descriptor that was discarded: it writes nothing, and only its PULL ends (R95;
state `u`); then comes what the freed tag leads to (log 9). -/
def Sys2Proof.Part.PayloadOfDiscardedDescriptor : Prop :=
  ∀ (a : Arrival) (g : TagIdx) (i : SubIdx) (q : Seq) (c blk : Nat) (dl : Timer) (att : Nat) (s : State),
    s.accepts .payload a = true →
    s.answers .payload a.header g { sub := i, request := .pull q c a.body.length blk, attempts := att, deadline := dl } →
    a.header.incarnation = (s.sub i).incarnation → a.header.epoch = (s.sub i).epoch → (s.sub i).pullRecord q = none →
    ∃ u, exec (.payloadFrame a) s = .next ((settle u).leaveTest i) ∧ u.tag g = { s.tag g with bound := none } ∧
      (∀ x, x ≠ g → u.tag x = s.tag x) ∧ u.sub i = { s.sub i with pullsOut := (s.sub i).pullsOut - 1 } ∧
      (∀ j, j ≠ i → u.sub j = s.sub j) ∧ u.lpc = s.lpc ∧ u.liu = s.liu ∧ u.pub = s.pub ∧ u.dpc = s.dpc ∧
      u.pdu = s.pdu ∧ u.memory = s.memory

/-- A PAYLOAD of the length its PULL asked, for a descriptor that is still recorded: its bytes stand in the PULL's block, no
other byte of memory has changed, its chunk is recorded as arrived, the entry is COMPLETE when every chunk of the descriptor
has arrived and else stays PULLING, and the tag is free (R93; state `u`); then come the deliveries and the rounds that it
allows. -/
def Sys2Proof.Part.PayloadFillsItsBlock : Prop :=
  ∀ (a : Arrival) (g : TagIdx) (i : SubIdx) (q : Seq) (c blk : Nat) (dl : Timer) (att : Nat) (p : PullRecord) (s : State),
    s.accepts .payload a = true →
    s.answers .payload a.header g { sub := i, request := .pull q c a.body.length blk, attempts := att, deadline := dl } →
    a.header.incarnation = (s.sub i).incarnation → a.header.epoch = (s.sub i).epoch →
    (s.sub i).pullRecord q = some p → MemoryCanonical s →
    ∃ u : State, exec (.payloadFrame a) s = .next ((settle u).leaveTest i) ∧
      (∀ k, k < a.body.length → u.byteAt (addr (s.config.poolBase + 256 * blk) + addr k) = a.body.getD k 0) ∧
      (∀ x : Addr, (∀ k, k < a.body.length → x ≠ addr (s.config.poolBase + 256 * blk) + addr k) →
        u.byteAt x = s.byteAt x) ∧
      (u.tag g).bound = none ∧ (u.sub i).pullsOut = (s.sub i).pullsOut - 1 ∧
      (∃ p', (u.sub i).pullRecord q = some p' ∧ p'.image = p.image ∧ p'.blocks = p.blocks ∧ p'.issued = p.issued ∧
        p'.arrived = (if c ∈ p.arrived then p.arrived else p.arrived ++ [c]) ∧
        (s.entryAt i q = .pulling p.image →
          u.entryAt i q = if p'.arrived.length = (p.image.length.toNat + 255) / 256 then .complete p.image
            else .pulling p.image)) ∧
      (∀ j, j ≠ i → u.sub j = s.sub j) ∧
      u.pub = s.pub ∧ u.lpc = s.lpc ∧ u.liu = s.liu ∧ u.pdu = s.pdu

/-- A PAYLOAD. The order of what follows it within the event is the model's (log 9). -/
def Obligations.PayloadOutcomes : Prop :=
  Part.WrongLengthPayloadFaults ∧ Part.WrongLengthPayloadInLeaving ∧ Part.PayloadOfDiscardedDescriptor ∧
  Part.PayloadFillsItsBlock

/-! ### The serve engine (chapter 7) -/

/-- The requester is a member of the ring with its present incarnation. -/
def Sys2Proof.Machine.State.memberOf (s : State) (e : ServeEntry) (m : Member) : Prop :=
  rosterOrdered (s.ring e.ring).roster ∧ m ∈ (s.ring e.ring).roster ∧ m.station = e.source ∧ m.incarnation = e.incarnation

/-- The ring has no entry for the requester. -/
def Sys2Proof.Machine.State.strangerTo (s : State) (e : ServeEntry) : Prop :=
  ∀ m ∈ (s.ring e.ring).roster, m.station ≠ e.source

/-- A serve of this entry is next: it is the oldest, and the reply transmit queue has room. -/
def Sys2Proof.Machine.State.serves (s : State) (e : ServeEntry) (rest : List ServeEntry) : Prop :=
  s.pub.serveQueue = e :: rest ∧ s.liu.replies.length < 8

/-- The common fields of a reply to an entry (R145). -/
def Sys2Proof.Machine.State.replyFor (s : State) (e : ServeEntry) (f : Frame) : Prop :=
  f.header.source = s.lpc.stationNumber ∧ f.header.incarnation = s.config.incarnation ∧ f.header.dest = e.source ∧
  f.header.ring.toNat = e.ring.val ∧ f.header.epoch = (s.ring e.ring).epoch ∧ f.header.tag = e.tag ∧
  f.header.useCount = e.useCount

/-- A JOIN on a CLOSED ring, or on a WITHDRAWING one from a station with no entry, is refused CLOSED; on an OPEN ring whose
roster holds 6, ROSTER_FULL; the ring records stay as they are. -/
def Sys2Proof.Part.JoinRefusedByServe : Prop :=
  ∀ (e : ServeEntry) (rest : List ServeEntry) (newest : Bool) (s : State), s.serves e rest → e.body = .join newest →
    s.strangerTo e → ((s.ring e.ring).state ≠ .opened ∨ 6 ≤ (s.ring e.ring).roster.length) →
    ∃ f, exec .serveJoin s = .next { s with pub := { s.pub with serveQueue := rest },
                                            liu := { s.liu with replies := s.liu.replies ++ [f] } } ∧
      f.kind = .refuse ∧ s.replyFor e f ∧ ((s.ring e.ring).state ≠ .opened → f.header.reason = 1) ∧
      ((s.ring e.ring).state = .opened → f.header.reason = 2)

/-- A JOIN of a new member on an OPEN ring with room admits it with its mark at the tail (NEWEST) or the reclaim point
(OLDEST), starts its silence timer, posts MEMBER_JOINED, and welcomes it at the mark. -/
def Sys2Proof.Part.JoinAdmitsMember : Prop :=
  ∀ (e : ServeEntry) (rest : List ServeEntry) (newest : Bool) (s : State), s.serves e rest → e.body = .join newest →
    s.strangerTo e → (s.ring e.ring).state = .opened → (s.ring e.ring).roster.length < 6 → s.lpc.notices.length < 64 →
    let mark := if newest then (s.ring e.ring).tail else (s.ring e.ring).reclaim
    ∃ t f, exec .serveJoin s = .next t ∧
      ({ station := e.source, incarnation := e.incarnation, mark := mark, silence := some s.config.silenceLimit } : Member) ∈
        (t.ring e.ring).roster ∧
      (t.ring e.ring).roster.length = (s.ring e.ring).roster.length + 1 ∧
      (∀ m ∈ (s.ring e.ring).roster, m ∈ (t.ring e.ring).roster) ∧ (t.ring e.ring).tail = (s.ring e.ring).tail ∧
      t.lpc.notices = s.lpc.notices ++ [{ kind := .memberJoined, index := BitVec.ofNat 8 e.ring.val, reason := 0,
                                          value := e.source.setWidth 32 }] ∧
      t.liu.replies = s.liu.replies ++ [f] ∧ f.kind = .welcome ∧ s.replyFor e f ∧ f.header.seq = mark ∧
      f.tail.tail = (s.ring e.ring).tail ∧ f.tail.revision = (s.ring e.ring).revision ∧ f.tail.state = 1 ∧
      (∀ q, q ≠ e.ring → t.ring q = s.ring q) ∧ t.pub.serveQueue = rest ∧ t.subs = s.subs ∧ t.memory = s.memory

/-- A JOIN from a member of an OPEN or WITHDRAWING ring is a re-join: the entry keeps its mark, its silence timer restarts, no
notice is posted, and the WELCOME starts at the mark. -/
def Sys2Proof.Part.RejoinKeepsMark : Prop :=
  ∀ (e : ServeEntry) (rest : List ServeEntry) (newest : Bool) (m : Member) (s : State), s.serves e rest →
    e.body = .join newest → s.memberOf e m → (s.ring e.ring).state ≠ .closed →
    ∃ f, exec .serveJoin s = .next
        { s.modRing e.ring (fun g => { g with roster := g.roster.map fun x =>
            if x.station == e.source then { x with silence := some s.config.silenceLimit } else x }) with
          pub := { (s.modRing e.ring (fun g => { g with roster := g.roster.map fun x =>
            if x.station == e.source then { x with silence := some s.config.silenceLimit } else x })).pub with
              serveQueue := rest },
          liu := { s.liu with replies := s.liu.replies ++ [f] } } ∧
      f.kind = .welcome ∧ s.replyFor e f ∧ f.header.seq = m.mark ∧ f.tail.tail = (s.ring e.ring).tail ∧
      f.tail.state = (s.ring e.ring).state.code

/-- A serve of a JOIN. -/
def Obligations.JoinServed : Prop := Part.JoinRefusedByServe ∧ Part.JoinAdmitsMember ∧ Part.RejoinKeepsMark

/-- The gate of FETCH and PULL: a CLOSED ring refuses with CLOSED; else another epoch than the ring's draws STALE_EPOCH; else a
station with no entry draws NOT_MEMBER. No ring record changes. -/
def Obligations.RequestGate : Prop :=
  ∀ (c : Instr) (e : ServeEntry) (rest : List ServeEntry) (s : State), s.serves e rest →
    (s.strangerTo e ∨ (∃ m, s.memberOf e m) ∧
      ((s.ring e.ring).state = .closed ∨ e.epoch ≠ (s.ring e.ring).epoch)) →
    ((c = .serveFetch ∧ ∃ q n, e.body = .fetch q n) ∨ (c = .servePull ∧ ∃ q k n, e.body = .pull q k n)) →
    ∃ f, exec c s = .next { s with pub := { s.pub with serveQueue := rest },
                                   liu := { s.liu with replies := s.liu.replies ++ [f] } } ∧
      f.kind = .refuse ∧ s.replyFor e f ∧
      f.header.reason = (if (s.ring e.ring).state = .closed then 1 else if e.epoch ≠ (s.ring e.ring).epoch then 4 else 3)

/-- A member's FETCH below the reclaim point is refused with RECLAIMED and changes no ring record; any other is answered with
a LISTING of the lesser of count and tail − first descriptors (none at or beyond the tail), which raises the commit point to
the end of what it serves and restarts the silence timer. -/
def Obligations.FetchServed : Prop :=
  ∀ (e : ServeEntry) (rest : List ServeEntry) (q : Seq) (n : Nat) (m : Member) (s : State), s.serves e rest →
    e.body = .fetch q n → n ≤ 16 → s.memberOf e m → (s.ring e.ring).state ≠ .closed → e.epoch = (s.ring e.ring).epoch →
    let g := s.ring e.ring
    let d := (q - g.reclaim).toNat
    let p := (g.tail - g.reclaim).toNat
    ∃ t f, exec .serveFetch s = .next t ∧ t.liu.replies = s.liu.replies ++ [f] ∧ t.pub.serveQueue = rest ∧ s.replyFor e f ∧
      (2147483648 ≤ d → f.kind = .refuse ∧ f.header.reason = 5 ∧ t.ring e.ring = g) ∧
      (d < 2147483648 →
        let served := if d < p then min n (p - d) else 0
        f.kind = .listing ∧ f.header.seq = q ∧ f.header.count.toNat = served ∧ f.tail.tail = g.tail ∧
        f.tail.revision = g.revision ∧ f.tail.state = g.state.code ∧ f.body.length = 16 * served ∧
        bodyImages f.body = (List.range served).map (fun k =>
          imageOfSlot (q + BitVec.ofNat 32 k) (s.slotAt g (q + BitVec.ofNat 32 k))) ∧
        (t.ring e.ring).commit = (if 1 ≤ served ∧ seqBefore g.commit (q + BitVec.ofNat 32 served) = true
          then q + BitVec.ofNat 32 served else g.commit) ∧
        (t.ring e.ring).reclaim = g.reclaim ∧ (t.ring e.ring).tail = g.tail ∧
        { m with silence := some s.config.silenceLimit } ∈ (t.ring e.ring).roster) ∧
      (∀ r, r ≠ e.ring → t.ring r = s.ring r) ∧ t.lpc = s.lpc ∧ t.subs = s.subs ∧ t.memory = s.memory

/-- A member's PULL of a sequence in [reclaim point, commit point), within the slot's length and inside memory, is answered with
a PAYLOAD of the bytes that memory holds, and restarts the silence timer; any other is refused with OUT_OF_RANGE. -/
def Obligations.PullServed : Prop :=
  ∀ (e : ServeEntry) (rest : List ServeEntry) (q : Seq) (c n : Nat) (m : Member) (s : State), s.serves e rest →
    e.body = .pull q c n → 1 ≤ n → s.memberOf e m → (s.ring e.ring).state ≠ .closed → e.epoch = (s.ring e.ring).epoch →
    let g := s.ring e.ring
    let d := s.slotAt g q
    let fine := (q - g.reclaim).toNat < (g.commit - g.reclaim).toNat ∧ c * 256 + n ≤ d.length.toNat ∧
      d.offset.toNat + c * 256 + n ≤ 262144
    ∃ t f, exec .servePull s = .next t ∧ t.liu.replies = s.liu.replies ++ [f] ∧ t.pub.serveQueue = rest ∧ s.replyFor e f ∧
      (¬ fine → f.kind = .refuse ∧ f.header.reason = 6 ∧ t.ring e.ring = g) ∧
      (fine → f.kind = .payload ∧ f.header.seq = q ∧ f.header.count = BitVec.ofNat 5 c ∧
        f.header.length = BitVec.ofNat 9 n ∧
        f.body = (List.range n).map (fun k => s.byteAt (addr (d.offset.toNat + c * 256) + addr k)) ∧
        (t.ring e.ring).commit = g.commit ∧ (t.ring e.ring).reclaim = g.reclaim ∧
        { m with silence := some s.config.silenceLimit } ∈ (t.ring e.ring).roster) ∧
      (∀ r, r ≠ e.ring → t.ring r = s.ring r) ∧ t.lpc = s.lpc ∧ t.subs = s.subs ∧ t.memory = s.memory

/-! ### The pull engine, the rounds and delivery (chapters 3 and 4) -/

/-- A subscription is ready for a turn (R88). -/
def Sys2Proof.Machine.readyForTurn (b : Sub) : Prop :=
  (b.state = .active ∨ b.state = .finishing) ∧ b.pullsOut < b.window ∧
  (b.issue ≠ none ∨ (b.blockWait = none ∧ b.pullWait = false ∧ ¬ (b.state = .finishing ∧ b.pp = b.kt)))

/-- A turn that attempts a pull start of the HELD descriptor at PP, of length at least 1: with blocks enough it becomes
PULLING in the lowest FREE blocks, PP rises, and its first chunk is the issue position; with too few it waits for them. -/
def Sys2Proof.Part.PullStartTakesBlocks : Prop :=
  ∀ (i : SubIdx) (im : Image) (s : State), firstAfter s.pdu.pullGrantPtr (fun j => readyForTurn (s.sub j)) i →
    (s.sub i).issue = none → s.entryAt i (s.sub i).pp = .held im → im.seq = (s.sub i).pp →
    seqBefore (s.sub i).pp (s.sub i).fp = true → 1 ≤ im.length.toNat → (∀ j, s.deliverable j = false) →
    let c := chunkCount im.length.toNat
    let u := s.takeTurn i
    (c ≤ s.freeBlocks → exec .pullStart s = .next (((u.allocate i im.seq c).setEntry i im.seq (.pulling im)).modSub i
      fun b => { b with pp := b.pp + 1, issue := some (im.seq, 0),
                        pulls := b.pulls ++ [{ image := im, blocks := s.allocated i im.seq c, issued := 0, arrived := [] }] })) ∧
    (s.freeBlocks < c → exec .pullStart s = .next (u.modSub i fun b => { b with blockWait := some (im.seq, c) }))

/-- A turn with nothing held at PP (PP = FP) takes DPC's answer: pull wait is set when the producer has more (DEFER), and in
ACTIVE also when it has not (CAUGHT_UP). -/
def Sys2Proof.Part.PullStartDefers : Prop :=
  ∀ (i : SubIdx) (s : State), firstAfter s.pdu.pullGrantPtr (fun j => readyForTurn (s.sub j)) i → (s.sub i).issue = none →
    (s.sub i).fp = (s.sub i).pp →
    exec .pullStart s = .next ((s.takeTurn i).modSub i fun b => { b with
      pullWait := b.pullWait || seqBefore b.fp b.kt || decide (b.state = .active) })

/-- A turn that attempts a pull start. -/
def Obligations.PullStartTurn : Prop := Part.PullStartTakesBlocks ∧ Part.PullStartDefers

/-- A turn at issue position (q, k) claims a PULL of chunk k of descriptor q, naming its length and its block; the pulls
outstanding rise by one, and the issue position moves to the descriptor's next chunk, or after its last chunk to the next
descriptor with a chunk unissued (`later`), or to none. -/
def Obligations.ChunkIssueClaimsPull : Prop :=
  ∀ (i : SubIdx) (q : Seq) (k : Nat) (p : PullRecord) (earlier later : List PullRecord) (s : State),
    firstAfter s.pdu.pullGrantPtr (fun j => readyForTurn (s.sub j)) i → (s.sub i).issue = some (q, k) →
    (s.sub i).pulls = earlier ++ p :: later → p.image.seq = q →
    (∀ x ∈ earlier ++ later, x.image.seq ≠ q) →
    (∀ x ∈ earlier, x.issued = chunkCount x.image.length.toNat) → p.issued = k →
    k < chunkCount p.image.length.toNat → (s.sub i).claims = [] →
    let n := if k + 1 = chunkCount p.image.length.toNat then p.image.length.toNat - 256 * k else 256
    let request := Request.pull q k n (p.blocks.getD k 0)
    ∃ t, exec .chunkIssue s = .next t ∧ t.pdu = { s.pdu with pullGrantPtr := i } ∧
      (t.sub i).pullsOut = (s.sub i).pullsOut + 1 ∧
      (t.sub i).pulls = earlier ++ { p with issued := k + 1 } :: later ∧
      (k + 1 < chunkCount p.image.length.toNat → (t.sub i).issue = some (q, k + 1)) ∧
      (k + 1 = chunkCount p.image.length.toNat →
        ((∀ x ∈ later, x.issued = chunkCount x.image.length.toNat) → (t.sub i).issue = none) ∧
        ∀ (l1 l2 : List PullRecord) (x : PullRecord), later = l1 ++ x :: l2 →
          (∀ y ∈ l1, y.issued = chunkCount y.image.length.toNat) → x.issued < chunkCount x.image.length.toNat →
          (t.sub i).issue = some (x.image.seq, x.issued)) ∧
      ((t.sub i).claims = [request] ∨
        ∃ g, (t.tag g).bound = some { sub := i, request := request, attempts := 1, deadline := none }) ∧
      (∀ j, j ≠ i → t.sub j = { s.sub j with claims := (t.sub j).claims }) ∧
      t.lpc = s.lpc ∧ t.liu = s.liu ∧ t.pub = s.pub ∧ t.dpc = s.dpc ∧ t.memory = s.memory

/-- One subscription in block wait whose need the FREE blocks cover, its descriptor still HELD at PP: the round gives it the
lowest FREE blocks, ends its wait, starts its pull and moves the block-grant pointer to it. -/
def Sys2Proof.Part.BlockGrantStartsPull : Prop :=
  ∀ (i : SubIdx) (im : Image) (c : Nat) (s : State), (s.sub i).blockWait = some (im.seq, c) →
    (∀ j, j ≠ i → (s.sub j).blockWait = none) → c = chunkCount im.length.toNat → 1 ≤ c → c ≤ s.freeBlocks →
    s.entryAt i im.seq = .held im → im.seq = (s.sub i).pp → (∀ j, s.deliverable j = false) →
    ∃ t, exec .blockGrantRound s = .next t ∧
      t.sub i = { s.sub i with
        blockWait := none, pp := (s.sub i).pp + 1, issue := some (im.seq, 0)
        pulls := (s.sub i).pulls ++ [{ image := im, blocks := s.allocated i im.seq c, issued := 0, arrived := [] }] } ∧
      (∀ j, j ≠ i → t.sub j = s.sub j) ∧ t.entryAt i im.seq = .pulling im ∧
      t.pdu = { s.pdu with blocks := (s.allocate i im.seq c).pdu.blocks, blockGrantPtr := i } ∧
      t.lpc = s.lpc ∧ t.liu = s.liu ∧ t.pub = s.pub ∧ t.rqt = s.rqt ∧ t.memory = s.memory

/-- A subscription in block wait whose need exceeds the FREE blocks is passed over: the round changes nothing. -/
def Sys2Proof.Part.BlockGrantPassesOver : Prop :=
  ∀ (s : State), (∀ j q c, (s.sub j).blockWait = some (q, c) → s.freeBlocks < c) → (∀ j, s.deliverable j = false) →
    exec .blockGrantRound s = .next s

/-- The block grant round, from a state in which it is due (log 9). -/
def Obligations.BlockGrantRound : Prop := Part.BlockGrantStartsPull ∧ Part.BlockGrantPassesOver

/-- Without a spare line, or with no subscription in line wait, the line wait round changes nothing. -/
def Sys2Proof.Part.LineWaitRoundIdle : Prop :=
  ∀ (s : State), (s.spareLines = 0 ∨ ∀ i, (s.sub i).lineWait = false) → exec .lineWaitRound s = .next s

/-- With one subscription in line wait and a spare line, the round evaluates it: it takes the lowest FREE line for the
first new group, asks for `c.size` descriptors from AP, and the line-grant pointer moves to it. -/
def Sys2Proof.Part.LineWaitRoundServesWaiter : Prop :=
  ∀ (i : SubIdx) (s : State), (s.sub i).lineWait = true → (∀ j, j ≠ i → (s.sub j).lineWait = false) →
    0 < s.spareLines → ((s.sub i).state = .active ∨ (s.sub i).state = .finishing) → (s.sub i).flushPending = false →
    (s.sub i).fetchesOut + 1 = s.config.fetchesPerSub →
    let v := s.modSub i fun b => { b with lineWait := false }
    let c := v.cover i
    s.enough i c.size = true → 0 < c.spare → c.borrowed = none →
    ∃ t, exec .lineWaitRound s = .next t ∧ t.dpc.lineGrantPtr = i ∧ (t.sub i).lineWait = false ∧
      (∀ l, s.dpc.lines.get l = .free → (∀ k, k < l → s.dpc.lines.get k ≠ .free) →
        ∃ es, t.dpc.lines.get l = .assigned i (c.groups.headD 0) es) ∧
      (t.sub i).ap = (s.sub i).ap + BitVec.ofNat 32 c.size ∧ (t.sub i).fetchesOut = (s.sub i).fetchesOut + 1 ∧
      (t.sub i).dp = (s.sub i).dp ∧ (t.sub i).pp = (s.sub i).pp ∧ (t.sub i).fp = (s.sub i).fp ∧
      t.lpc = s.lpc ∧ t.liu = s.liu ∧ t.pub = s.pub ∧ t.pdu = s.pdu ∧ t.memory = s.memory

/-- The line wait round, from a state in which it is due (log 9). -/
def Obligations.LineWaitRound : Prop := Part.LineWaitRoundIdle ∧ Part.LineWaitRoundServesWaiter

/-- A delivery for the first deliverable subscription after the delivery pointer: the record stands in the slot at the write
index, the write index and the fill move on, and DP rises by one; the other bytes of memory are as they were. -/
def Sys2Proof.Part.DeliveryWritesRecord : Prop :=
  ∀ (i : SubIdx) (p : PullRecord) (s : State), s.pdu.fill < s.pdu.capacity →
    firstAfter s.pdu.deliveryPtr (fun j => s.deliverable j = true) i →
    (s.sub i).pullRecord (s.sub i).dp = some p → MemoryCanonical s →
    ∃ t, exec .delivery s = .next t ∧ (t.sub i).dp = (s.sub i).dp + 1 ∧ (t.sub i).rm = (s.sub i).rm ∧
      t.pdu.fill = s.pdu.fill + 1 ∧ t.pdu.writeIndex = (s.pdu.writeIndex + 1) % s.pdu.capacity ∧
      t.pdu.readIndex = s.pdu.readIndex ∧ t.pdu.deliveryPtr = i ∧
      (∀ k, k < 48 → t.byteAt (addr (s.config.queueBase + 48 * s.pdu.writeIndex) + addr k) =
        (deliveryRecord i (s.sub i) p).getD k 0) ∧
      (∀ x : Addr, (∀ k, k < 48 → x ≠ addr (s.config.queueBase + 48 * s.pdu.writeIndex) + addr k) →
        t.byteAt x = s.byteAt x) ∧
      t.pub = s.pub

/-- The fields of a delivery record stand at their bytes (Table 10-9). -/
def Sys2Proof.Part.DeliveryRecordLayout : Prop :=
  ∀ (i : SubIdx) (b : Sub) (p : PullRecord), p.image.length.toNat ≤ 4096 →
    let r := deliveryRecord i b p
    r.length = 48 ∧ (r.getD 0 0).toNat = i.val ∧ (r.getD 1 0).toNat = b.producer.toNat ∧ (r.getD 2 0).toNat = b.ring.val ∧
    (r.getD 3 0).getLsbD 0 = p.image.fence ∧ (r.getD 3 0).getLsbD 1 = p.image.last ∧
    word (r.getD 4 0) (r.getD 5 0) (r.getD 6 0) (r.getD 7 0) = p.image.seq ∧
    word (r.getD 8 0) (r.getD 9 0) (r.getD 10 0) (r.getD 11 0) = p.image.stamp ∧
    half (r.getD 12 0) (r.getD 13 0) = p.image.length ∧
    (r.getD 14 0).toNat = (p.image.length.toNat + 255) / 256 ∧ r.getD 15 0 = 0 ∧
    (∀ k, k < 16 → half (r.getD (16 + 2 * k) 0) (r.getD (17 + 2 * k) 0) =
      if k < (p.image.length.toNat + 255) / 256 then BitVec.ofNat 16 (p.blocks.getD k 0) else 0)


/-- A delivery, from a state in which it is due (log 9), and the record it writes. -/
def Obligations.DeliveryOutcomes : Prop := Part.DeliveryWritesRecord ∧ Part.DeliveryRecordLayout
/-! ### Invariants and frames on the medium -/

/-- A property that every step keeps. -/
def Sys2Proof.Machine.keptByStep (inv : State → Prop) : Prop := ∀ s t : State, inv s → step s = .next t → inv t

/-- Every step keeps station memory in its canonical form. -/
def Obligations.StepKeepsMemoryCanonical : Prop := keptByStep MemoryCanonical

/-- Every step keeps every queue within its places (R113, R144, R153, R162, R183), and the notices-lost flag and the dropped
count in agreement. -/
def Obligations.StepKeepsQueueBounds : Prop := keptByStep QueuesBounded ∧ keptByStep NoticesCoherent

/-- Every step keeps every ring record coherent, and with it the order of every ring's points (R17) and the room that a
validating ADVANCE found (R13). -/
def Obligations.StepKeepsRingsCoherent : Prop :=
  keptByStep RingsCoherent ∧ keptByStep fun s => RingsCoherent s ∧ RingPointsOrdered s

/-- Every step keeps the Delivery Queue's indices in agreement, the pool and the queue at their sizes, and no more than 64
records of a subscription unretired. -/
def Obligations.StepKeepsDeliveryBounds : Prop :=
  keptByStep DeliveryQueueCoherent ∧ keptByStep PoolSized ∧ keptByStep UnretiredBounded

/-- Every step keeps every bound tag and every waiting claim with a subscription that is live. -/
def Obligations.StepKeepsRequestsOwned : Prop := keptByStep RequestsOwned

/-- Every step keeps the units at their reset values until START has taken the station to RUNNING. -/
def Obligations.StepKeepsQuietUntilStart : Prop := keptByStep QuietUntilStart

/-- The state after reset satisfies every invariant. -/
def Obligations.ResetSatisfiesInvariants : Prop :=
  MemoryCanonical State.reset ∧ QueuesBounded State.reset ∧ NoticesCoherent State.reset ∧ RingsCoherent State.reset ∧
  RingPointsOrdered State.reset ∧ DeliveryQueueCoherent State.reset ∧ PoolSized State.reset ∧
  UnretiredBounded State.reset ∧ RequestsOwned State.reset ∧ QuietUntilStart State.reset

/-- A frame read back from its bytes on the medium is the frame, with the key of its class and source, a passing frame check,
and a zero tail block where its kind has none. The register form of the frame check is presumed (log 14). -/
def Obligations.FrameBytesReadBack : Prop :=
  ∀ f : Frame, readFrame (frameBytes f) = some (f.kind,
    { key := arbitrationKey f.kind f.header.source, header := f.header,
      tail := if kindHasTail f.kind then f.tail else zeroTail, body := f.body, intact := true })
end

