-- ==== Sys2Proof/Laws/State.lean ====
section
/-! SUPPORT. One lemma per field and named update of the state: what the update leaves as it was, and what it writes. -/
namespace Sys2Proof.Machine

/-! ### `Timer.due` -/

theorem Timer.due_iff (t : Timer) : t.due = true ↔ t = some 0 := by
  rcases t with _ | _ | n <;> simp [Timer.due]

/-! ### `modRing` -/

@[simp] theorem modRing_lpc (s : State) (r : RingIdx) (f : Ring → Ring) : (s.modRing r f).lpc = s.lpc := rfl
@[simp] theorem modRing_liu (s : State) (r : RingIdx) (f : Ring → Ring) : (s.modRing r f).liu = s.liu := rfl
@[simp] theorem modRing_subs (s : State) (r : RingIdx) (f : Ring → Ring) : (s.modRing r f).subs = s.subs := rfl
@[simp] theorem modRing_dpc (s : State) (r : RingIdx) (f : Ring → Ring) : (s.modRing r f).dpc = s.dpc := rfl
@[simp] theorem modRing_rqt (s : State) (r : RingIdx) (f : Ring → Ring) : (s.modRing r f).rqt = s.rqt := rfl
@[simp] theorem modRing_pdu (s : State) (r : RingIdx) (f : Ring → Ring) : (s.modRing r f).pdu = s.pdu := rfl
@[simp] theorem modRing_memory (s : State) (r : RingIdx) (f : Ring → Ring) : (s.modRing r f).memory = s.memory := rfl
@[simp] theorem modRing_pending (s : State) (r : RingIdx) (f : Ring → Ring) : (s.modRing r f).pending = s.pending := rfl
@[simp] theorem modRing_freeIndex (s : State) (r : RingIdx) (f : Ring → Ring) : (s.modRing r f).freeIndex = s.freeIndex := rfl

/-! ### `modSub` -/

@[simp] theorem modSub_lpc (s : State) (i : SubIdx) (f : Sub → Sub) : (s.modSub i f).lpc = s.lpc := rfl
@[simp] theorem modSub_liu (s : State) (i : SubIdx) (f : Sub → Sub) : (s.modSub i f).liu = s.liu := rfl
@[simp] theorem modSub_pub (s : State) (i : SubIdx) (f : Sub → Sub) : (s.modSub i f).pub = s.pub := rfl
@[simp] theorem modSub_dpc (s : State) (i : SubIdx) (f : Sub → Sub) : (s.modSub i f).dpc = s.dpc := rfl
@[simp] theorem modSub_rqt (s : State) (i : SubIdx) (f : Sub → Sub) : (s.modSub i f).rqt = s.rqt := rfl
@[simp] theorem modSub_pdu (s : State) (i : SubIdx) (f : Sub → Sub) : (s.modSub i f).pdu = s.pdu := rfl
@[simp] theorem modSub_memory (s : State) (i : SubIdx) (f : Sub → Sub) : (s.modSub i f).memory = s.memory := rfl
@[simp] theorem modSub_pending (s : State) (i : SubIdx) (f : Sub → Sub) : (s.modSub i f).pending = s.pending := rfl
@[simp] theorem modSub_freeIndex (s : State) (i : SubIdx) (f : Sub → Sub) : (s.modSub i f).freeIndex = s.freeIndex := rfl

/-! ### `modTag` -/

@[simp] theorem modTag_lpc (s : State) (t : TagIdx) (f : Tag → Tag) : (s.modTag t f).lpc = s.lpc := rfl
@[simp] theorem modTag_liu (s : State) (t : TagIdx) (f : Tag → Tag) : (s.modTag t f).liu = s.liu := rfl
@[simp] theorem modTag_pub (s : State) (t : TagIdx) (f : Tag → Tag) : (s.modTag t f).pub = s.pub := rfl
@[simp] theorem modTag_subs (s : State) (t : TagIdx) (f : Tag → Tag) : (s.modTag t f).subs = s.subs := rfl
@[simp] theorem modTag_dpc (s : State) (t : TagIdx) (f : Tag → Tag) : (s.modTag t f).dpc = s.dpc := rfl
@[simp] theorem modTag_pdu (s : State) (t : TagIdx) (f : Tag → Tag) : (s.modTag t f).pdu = s.pdu := rfl
@[simp] theorem modTag_memory (s : State) (t : TagIdx) (f : Tag → Tag) : (s.modTag t f).memory = s.memory := rfl
@[simp] theorem modTag_pending (s : State) (t : TagIdx) (f : Tag → Tag) : (s.modTag t f).pending = s.pending := rfl
@[simp] theorem modTag_freeIndex (s : State) (t : TagIdx) (f : Tag → Tag) : (s.modTag t f).freeIndex = s.freeIndex := rfl

/-! ### `putByte` -/

@[simp] theorem putByte_lpc (s : State) (a : Addr) (b : Byte) : (s.putByte a b).lpc = s.lpc := rfl
@[simp] theorem putByte_liu (s : State) (a : Addr) (b : Byte) : (s.putByte a b).liu = s.liu := rfl
@[simp] theorem putByte_pub (s : State) (a : Addr) (b : Byte) : (s.putByte a b).pub = s.pub := rfl
@[simp] theorem putByte_subs (s : State) (a : Addr) (b : Byte) : (s.putByte a b).subs = s.subs := rfl
@[simp] theorem putByte_dpc (s : State) (a : Addr) (b : Byte) : (s.putByte a b).dpc = s.dpc := rfl
@[simp] theorem putByte_rqt (s : State) (a : Addr) (b : Byte) : (s.putByte a b).rqt = s.rqt := rfl
@[simp] theorem putByte_pdu (s : State) (a : Addr) (b : Byte) : (s.putByte a b).pdu = s.pdu := rfl
@[simp] theorem putByte_pending (s : State) (a : Addr) (b : Byte) : (s.putByte a b).pending = s.pending := rfl
@[simp] theorem putByte_freeIndex (s : State) (a : Addr) (b : Byte) : (s.putByte a b).freeIndex = s.freeIndex := rfl

/-! ### `finish` -/

@[simp] theorem finish_liu (s : State) (c : ResultCode) (w0 w1 : Word) : (s.finish c w0 w1).liu = s.liu := rfl
@[simp] theorem finish_pub (s : State) (c : ResultCode) (w0 w1 : Word) : (s.finish c w0 w1).pub = s.pub := rfl
@[simp] theorem finish_subs (s : State) (c : ResultCode) (w0 w1 : Word) : (s.finish c w0 w1).subs = s.subs := rfl
@[simp] theorem finish_dpc (s : State) (c : ResultCode) (w0 w1 : Word) : (s.finish c w0 w1).dpc = s.dpc := rfl
@[simp] theorem finish_rqt (s : State) (c : ResultCode) (w0 w1 : Word) : (s.finish c w0 w1).rqt = s.rqt := rfl
@[simp] theorem finish_pdu (s : State) (c : ResultCode) (w0 w1 : Word) : (s.finish c w0 w1).pdu = s.pdu := rfl
@[simp] theorem finish_memory (s : State) (c : ResultCode) (w0 w1 : Word) : (s.finish c w0 w1).memory = s.memory := rfl
@[simp] theorem finish_pending (s : State) (c : ResultCode) (w0 w1 : Word) : (s.finish c w0 w1).pending = s.pending := rfl
@[simp] theorem finish_freeIndex (s : State) (c : ResultCode) (w0 w1 : Word) : (s.finish c w0 w1).freeIndex = s.freeIndex := rfl

/-! ### `writeCmd` -/

@[simp] theorem writeCmd_liu (s : State) (c : Byte) : (s.writeCmd c).liu = s.liu := rfl
@[simp] theorem writeCmd_pub (s : State) (c : Byte) : (s.writeCmd c).pub = s.pub := rfl
@[simp] theorem writeCmd_subs (s : State) (c : Byte) : (s.writeCmd c).subs = s.subs := rfl
@[simp] theorem writeCmd_dpc (s : State) (c : Byte) : (s.writeCmd c).dpc = s.dpc := rfl
@[simp] theorem writeCmd_rqt (s : State) (c : Byte) : (s.writeCmd c).rqt = s.rqt := rfl
@[simp] theorem writeCmd_pdu (s : State) (c : Byte) : (s.writeCmd c).pdu = s.pdu := rfl
@[simp] theorem writeCmd_memory (s : State) (c : Byte) : (s.writeCmd c).memory = s.memory := rfl
@[simp] theorem writeCmd_pending (s : State) (c : Byte) : (s.writeCmd c).pending = s.pending := rfl
@[simp] theorem writeCmd_freeIndex (s : State) (c : Byte) : (s.writeCmd c).freeIndex = s.freeIndex := rfl

/-! ### `withLd` -/

@[simp] theorem withLd_liu (s : State) (w : Word) : (s.withLd w).liu = s.liu := rfl
@[simp] theorem withLd_pub (s : State) (w : Word) : (s.withLd w).pub = s.pub := rfl
@[simp] theorem withLd_subs (s : State) (w : Word) : (s.withLd w).subs = s.subs := rfl
@[simp] theorem withLd_dpc (s : State) (w : Word) : (s.withLd w).dpc = s.dpc := rfl
@[simp] theorem withLd_rqt (s : State) (w : Word) : (s.withLd w).rqt = s.rqt := rfl
@[simp] theorem withLd_pdu (s : State) (w : Word) : (s.withLd w).pdu = s.pdu := rfl
@[simp] theorem withLd_memory (s : State) (w : Word) : (s.withLd w).memory = s.memory := rfl
@[simp] theorem withLd_pending (s : State) (w : Word) : (s.withLd w).pending = s.pending := rfl
@[simp] theorem withLd_freeIndex (s : State) (w : Word) : (s.withLd w).freeIndex = s.freeIndex := rfl

/-! ### `setTransmitting` -/

@[simp] theorem setTransmitting_lpc (s : State) (f : Option Frame) : (s.setTransmitting f).lpc = s.lpc := rfl
@[simp] theorem setTransmitting_pub (s : State) (f : Option Frame) : (s.setTransmitting f).pub = s.pub := rfl
@[simp] theorem setTransmitting_subs (s : State) (f : Option Frame) : (s.setTransmitting f).subs = s.subs := rfl
@[simp] theorem setTransmitting_dpc (s : State) (f : Option Frame) : (s.setTransmitting f).dpc = s.dpc := rfl
@[simp] theorem setTransmitting_rqt (s : State) (f : Option Frame) : (s.setTransmitting f).rqt = s.rqt := rfl
@[simp] theorem setTransmitting_pdu (s : State) (f : Option Frame) : (s.setTransmitting f).pdu = s.pdu := rfl
@[simp] theorem setTransmitting_memory (s : State) (f : Option Frame) : (s.setTransmitting f).memory = s.memory := rfl
@[simp] theorem setTransmitting_pending (s : State) (f : Option Frame) : (s.setTransmitting f).pending = s.pending := rfl
@[simp] theorem setTransmitting_freeIndex (s : State) (f : Option Frame) : (s.setTransmitting f).freeIndex = s.freeIndex := rfl

/-! ### `placeReply` -/

@[simp] theorem placeReply_lpc (s : State) (f : Frame) : (s.placeReply f).lpc = s.lpc := rfl
@[simp] theorem placeReply_pub (s : State) (f : Frame) : (s.placeReply f).pub = s.pub := rfl
@[simp] theorem placeReply_subs (s : State) (f : Frame) : (s.placeReply f).subs = s.subs := rfl
@[simp] theorem placeReply_dpc (s : State) (f : Frame) : (s.placeReply f).dpc = s.dpc := rfl
@[simp] theorem placeReply_rqt (s : State) (f : Frame) : (s.placeReply f).rqt = s.rqt := rfl
@[simp] theorem placeReply_pdu (s : State) (f : Frame) : (s.placeReply f).pdu = s.pdu := rfl
@[simp] theorem placeReply_memory (s : State) (f : Frame) : (s.placeReply f).memory = s.memory := rfl
@[simp] theorem placeReply_pending (s : State) (f : Frame) : (s.placeReply f).pending = s.pending := rfl
@[simp] theorem placeReply_freeIndex (s : State) (f : Frame) : (s.placeReply f).freeIndex = s.freeIndex := rfl

/-! ### `takeTurn` -/

@[simp] theorem takeTurn_lpc (s : State) (i : SubIdx) : (s.takeTurn i).lpc = s.lpc := rfl
@[simp] theorem takeTurn_liu (s : State) (i : SubIdx) : (s.takeTurn i).liu = s.liu := rfl
@[simp] theorem takeTurn_pub (s : State) (i : SubIdx) : (s.takeTurn i).pub = s.pub := rfl
@[simp] theorem takeTurn_subs (s : State) (i : SubIdx) : (s.takeTurn i).subs = s.subs := rfl
@[simp] theorem takeTurn_dpc (s : State) (i : SubIdx) : (s.takeTurn i).dpc = s.dpc := rfl
@[simp] theorem takeTurn_rqt (s : State) (i : SubIdx) : (s.takeTurn i).rqt = s.rqt := rfl
@[simp] theorem takeTurn_memory (s : State) (i : SubIdx) : (s.takeTurn i).memory = s.memory := rfl
@[simp] theorem takeTurn_pending (s : State) (i : SubIdx) : (s.takeTurn i).pending = s.pending := rfl
@[simp] theorem takeTurn_freeIndex (s : State) (i : SubIdx) : (s.takeTurn i).freeIndex = s.freeIndex := rfl

/-! ### `setLine` -/

@[simp] theorem setLine_lpc (s : State) (l : LineIdx) (x : Line) : (s.setLine l x).lpc = s.lpc := rfl
@[simp] theorem setLine_liu (s : State) (l : LineIdx) (x : Line) : (s.setLine l x).liu = s.liu := rfl
@[simp] theorem setLine_pub (s : State) (l : LineIdx) (x : Line) : (s.setLine l x).pub = s.pub := rfl
@[simp] theorem setLine_subs (s : State) (l : LineIdx) (x : Line) : (s.setLine l x).subs = s.subs := rfl
@[simp] theorem setLine_rqt (s : State) (l : LineIdx) (x : Line) : (s.setLine l x).rqt = s.rqt := rfl
@[simp] theorem setLine_pdu (s : State) (l : LineIdx) (x : Line) : (s.setLine l x).pdu = s.pdu := rfl
@[simp] theorem setLine_memory (s : State) (l : LineIdx) (x : Line) : (s.setLine l x).memory = s.memory := rfl
@[simp] theorem setLine_pending (s : State) (l : LineIdx) (x : Line) : (s.setLine l x).pending = s.pending := rfl
@[simp] theorem setLine_freeIndex (s : State) (l : LineIdx) (x : Line) : (s.setLine l x).freeIndex = s.freeIndex := rfl

/-! ### `mapLines` -/

@[simp] theorem mapLines_lpc (s : State) (f : Line → Line) : (s.mapLines f).lpc = s.lpc := rfl
@[simp] theorem mapLines_liu (s : State) (f : Line → Line) : (s.mapLines f).liu = s.liu := rfl
@[simp] theorem mapLines_pub (s : State) (f : Line → Line) : (s.mapLines f).pub = s.pub := rfl
@[simp] theorem mapLines_subs (s : State) (f : Line → Line) : (s.mapLines f).subs = s.subs := rfl
@[simp] theorem mapLines_rqt (s : State) (f : Line → Line) : (s.mapLines f).rqt = s.rqt := rfl
@[simp] theorem mapLines_pdu (s : State) (f : Line → Line) : (s.mapLines f).pdu = s.pdu := rfl
@[simp] theorem mapLines_memory (s : State) (f : Line → Line) : (s.mapLines f).memory = s.memory := rfl
@[simp] theorem mapLines_pending (s : State) (f : Line → Line) : (s.mapLines f).pending = s.pending := rfl
@[simp] theorem mapLines_freeIndex (s : State) (f : Line → Line) : (s.mapLines f).freeIndex = s.freeIndex := rfl

/-! ### `mapBlocks` -/

@[simp] theorem mapBlocks_lpc (s : State) (f : Block → Block) : (s.mapBlocks f).lpc = s.lpc := rfl
@[simp] theorem mapBlocks_liu (s : State) (f : Block → Block) : (s.mapBlocks f).liu = s.liu := rfl
@[simp] theorem mapBlocks_pub (s : State) (f : Block → Block) : (s.mapBlocks f).pub = s.pub := rfl
@[simp] theorem mapBlocks_subs (s : State) (f : Block → Block) : (s.mapBlocks f).subs = s.subs := rfl
@[simp] theorem mapBlocks_dpc (s : State) (f : Block → Block) : (s.mapBlocks f).dpc = s.dpc := rfl
@[simp] theorem mapBlocks_rqt (s : State) (f : Block → Block) : (s.mapBlocks f).rqt = s.rqt := rfl
@[simp] theorem mapBlocks_memory (s : State) (f : Block → Block) : (s.mapBlocks f).memory = s.memory := rfl
@[simp] theorem mapBlocks_pending (s : State) (f : Block → Block) : (s.mapBlocks f).pending = s.pending := rfl
@[simp] theorem mapBlocks_freeIndex (s : State) (f : Block → Block) : (s.mapBlocks f).freeIndex = s.freeIndex := rfl

/-! ### `allocate` -/

@[simp] theorem allocate_lpc (s : State) (i : SubIdx) (q : Seq) (n : Nat) : (s.allocate i q n).lpc = s.lpc := rfl
@[simp] theorem allocate_liu (s : State) (i : SubIdx) (q : Seq) (n : Nat) : (s.allocate i q n).liu = s.liu := rfl
@[simp] theorem allocate_pub (s : State) (i : SubIdx) (q : Seq) (n : Nat) : (s.allocate i q n).pub = s.pub := rfl
@[simp] theorem allocate_subs (s : State) (i : SubIdx) (q : Seq) (n : Nat) : (s.allocate i q n).subs = s.subs := rfl
@[simp] theorem allocate_dpc (s : State) (i : SubIdx) (q : Seq) (n : Nat) : (s.allocate i q n).dpc = s.dpc := rfl
@[simp] theorem allocate_rqt (s : State) (i : SubIdx) (q : Seq) (n : Nat) : (s.allocate i q n).rqt = s.rqt := rfl
@[simp] theorem allocate_memory (s : State) (i : SubIdx) (q : Seq) (n : Nat) : (s.allocate i q n).memory = s.memory := rfl
@[simp] theorem allocate_pending (s : State) (i : SubIdx) (q : Seq) (n : Nat) : (s.allocate i q n).pending = s.pending := rfl
@[simp] theorem allocate_freeIndex (s : State) (i : SubIdx) (q : Seq) (n : Nat) : (s.allocate i q n).freeIndex = s.freeIndex := rfl

/-! ### Fields of LPC under its updates -/

@[simp] theorem finish_lpc (s : State) (c : ResultCode) (w0 w1 : Word) :
    (s.finish c w0 w1).lpc = { s.lpc with res := c.code, res0 := w0, res1 := w1, slot := .idle } := rfl
@[simp] theorem writeCmd_lpc (s : State) (c : Byte) : (s.writeCmd c).lpc = { s.lpc with cmd := c } := rfl
@[simp] theorem withLd_lpc (s : State) (w : Word) : (s.withLd w).lpc = { s.lpc with ld := w } := rfl

/-! ### Conditional updates: a notice and a one-off frame -/

@[simp] theorem post_liu (s : State) (n : Notice) : (s.post n).liu = s.liu := by
  unfold State.post; split <;> rfl
@[simp] theorem post_pub (s : State) (n : Notice) : (s.post n).pub = s.pub := by
  unfold State.post; split <;> rfl
@[simp] theorem post_subs (s : State) (n : Notice) : (s.post n).subs = s.subs := by
  unfold State.post; split <;> rfl
@[simp] theorem post_dpc (s : State) (n : Notice) : (s.post n).dpc = s.dpc := by
  unfold State.post; split <;> rfl
@[simp] theorem post_rqt (s : State) (n : Notice) : (s.post n).rqt = s.rqt := by
  unfold State.post; split <;> rfl
@[simp] theorem post_pdu (s : State) (n : Notice) : (s.post n).pdu = s.pdu := by
  unfold State.post; split <;> rfl
@[simp] theorem post_memory (s : State) (n : Notice) : (s.post n).memory = s.memory := by
  unfold State.post; split <;> rfl
@[simp] theorem post_pending (s : State) (n : Notice) : (s.post n).pending = s.pending := by
  unfold State.post; split <;> rfl
@[simp] theorem post_freeIndex (s : State) (n : Notice) : (s.post n).freeIndex = s.freeIndex := by
  unfold State.post; split <;> rfl
@[simp] theorem placeOneOff_lpc (s : State) (f : Frame) : (s.placeOneOff f).lpc = s.lpc := by
  unfold State.placeOneOff; split <;> rfl
@[simp] theorem placeOneOff_pub (s : State) (f : Frame) : (s.placeOneOff f).pub = s.pub := by
  unfold State.placeOneOff; split <;> rfl
@[simp] theorem placeOneOff_subs (s : State) (f : Frame) : (s.placeOneOff f).subs = s.subs := by
  unfold State.placeOneOff; split <;> rfl
@[simp] theorem placeOneOff_dpc (s : State) (f : Frame) : (s.placeOneOff f).dpc = s.dpc := by
  unfold State.placeOneOff; split <;> rfl
@[simp] theorem placeOneOff_rqt (s : State) (f : Frame) : (s.placeOneOff f).rqt = s.rqt := by
  unfold State.placeOneOff; split <;> rfl
@[simp] theorem placeOneOff_pdu (s : State) (f : Frame) : (s.placeOneOff f).pdu = s.pdu := by
  unfold State.placeOneOff; split <;> rfl
@[simp] theorem placeOneOff_memory (s : State) (f : Frame) : (s.placeOneOff f).memory = s.memory := by
  unfold State.placeOneOff; split <;> rfl
@[simp] theorem placeOneOff_pending (s : State) (f : Frame) : (s.placeOneOff f).pending = s.pending := by
  unfold State.placeOneOff; split <;> rfl
@[simp] theorem placeOneOff_freeIndex (s : State) (f : Frame) : (s.placeOneOff f).freeIndex = s.freeIndex := by
  unfold State.placeOneOff; split <;> rfl
@[simp] theorem post_lpc_state (s : State) (n : Notice) : (s.post n).lpc.state = s.lpc.state := by
  unfold State.post; split <;> rfl
@[simp] theorem post_lpc_stationNumber (s : State) (n : Notice) : (s.post n).lpc.stationNumber = s.lpc.stationNumber := by
  unfold State.post; split <;> rfl
@[simp] theorem post_lpc_bitRate (s : State) (n : Notice) : (s.post n).lpc.bitRate = s.lpc.bitRate := by
  unfold State.post; split <;> rfl
@[simp] theorem post_lpc_config (s : State) (n : Notice) : (s.post n).lpc.config = s.lpc.config := by
  unfold State.post; split <;> rfl
@[simp] theorem post_lpc_cmd (s : State) (n : Notice) : (s.post n).lpc.cmd = s.lpc.cmd := by
  unfold State.post; split <;> rfl
@[simp] theorem post_lpc_arg0 (s : State) (n : Notice) : (s.post n).lpc.arg0 = s.lpc.arg0 := by
  unfold State.post; split <;> rfl
@[simp] theorem post_lpc_arg1 (s : State) (n : Notice) : (s.post n).lpc.arg1 = s.lpc.arg1 := by
  unfold State.post; split <;> rfl
@[simp] theorem post_lpc_arg2 (s : State) (n : Notice) : (s.post n).lpc.arg2 = s.lpc.arg2 := by
  unfold State.post; split <;> rfl
@[simp] theorem post_lpc_arg3 (s : State) (n : Notice) : (s.post n).lpc.arg3 = s.lpc.arg3 := by
  unfold State.post; split <;> rfl
@[simp] theorem post_lpc_res (s : State) (n : Notice) : (s.post n).lpc.res = s.lpc.res := by
  unfold State.post; split <;> rfl
@[simp] theorem post_lpc_res0 (s : State) (n : Notice) : (s.post n).lpc.res0 = s.lpc.res0 := by
  unfold State.post; split <;> rfl
@[simp] theorem post_lpc_res1 (s : State) (n : Notice) : (s.post n).lpc.res1 = s.lpc.res1 := by
  unfold State.post; split <;> rfl
@[simp] theorem post_lpc_slot (s : State) (n : Notice) : (s.post n).lpc.slot = s.lpc.slot := by
  unfold State.post; split <;> rfl
@[simp] theorem post_lpc_ntc1 (s : State) (n : Notice) : (s.post n).lpc.ntc1 = s.lpc.ntc1 := by
  unfold State.post; split <;> rfl
@[simp] theorem post_lpc_ld (s : State) (n : Notice) : (s.post n).lpc.ld = s.lpc.ld := by
  unfold State.post; split <;> rfl
@[simp] theorem placeOneOff_liu_replies (s : State) (f : Frame) : (s.placeOneOff f).liu.replies = s.liu.replies := by
  unfold State.placeOneOff; split <;> rfl
@[simp] theorem placeOneOff_liu_announcePtr (s : State) (f : Frame) : (s.placeOneOff f).liu.announcePtr = s.liu.announcePtr := by
  unfold State.placeOneOff; split <;> rfl
@[simp] theorem placeOneOff_liu_releasePtr (s : State) (f : Frame) : (s.placeOneOff f).liu.releasePtr = s.liu.releasePtr := by
  unfold State.placeOneOff; split <;> rfl
@[simp] theorem placeOneOff_liu_transmitting (s : State) (f : Frame) : (s.placeOneOff f).liu.transmitting = s.liu.transmitting := by
  unfold State.placeOneOff; split <;> rfl

/-! ### Reading a table after a change of one record -/

@[simp] theorem sub_modSub_self (s : State) (i : SubIdx) (f : Sub → Sub) : (s.modSub i f).sub i = f (s.sub i) := by
  simp [State.sub, State.modSub, Vector.get_eq_getElem]

theorem sub_modSub_ne (s : State) {i j : SubIdx} (f : Sub → Sub) (h : i ≠ j) : (s.modSub i f).sub j = s.sub j := by
  have : i.val ≠ j.val := fun e => h (Fin.ext e)
  simp [State.sub, State.modSub, Vector.get_eq_getElem, this]

@[simp] theorem ring_modRing_self (s : State) (r : RingIdx) (f : Ring → Ring) : (s.modRing r f).ring r = f (s.ring r) := by
  simp [State.ring, State.modRing, Vector.get_eq_getElem]

theorem ring_modRing_ne (s : State) {r q : RingIdx} (f : Ring → Ring) (h : r ≠ q) : (s.modRing r f).ring q = s.ring q := by
  have : r.val ≠ q.val := fun e => h (Fin.ext e)
  simp [State.ring, State.modRing, Vector.get_eq_getElem, this]

@[simp] theorem tag_modTag_self (s : State) (t : TagIdx) (f : Tag → Tag) : (s.modTag t f).tag t = f (s.tag t) := by
  simp [State.tag, State.modTag, Vector.get_eq_getElem]

theorem tag_modTag_ne (s : State) {t u : TagIdx} (f : Tag → Tag) (h : t ≠ u) : (s.modTag t f).tag u = s.tag u := by
  have : t.val ≠ u.val := fun e => h (Fin.ext e)
  simp [State.tag, State.modTag, Vector.get_eq_getElem, this]

@[simp] theorem mapTable_get {α β : Type} {n : Nat} (f : α → β) (v : Vector α n) (k : Fin n) :
    (mapTable f v).get k = f (v.get k) := by
  simp [mapTable, Vector.get_eq_getElem, Vector.getElem_mk]

/-! ### Records read from the fields they stand in -/

theorem sub_congr {s t : State} (h : s.subs = t.subs) (i : SubIdx) : s.sub i = t.sub i := by unfold State.sub; rw [h]

theorem ring_congr {s t : State} (h : s.pub = t.pub) (r : RingIdx) : s.ring r = t.ring r := by unfold State.ring; rw [h]

theorem tag_congr {s t : State} (h : s.rqt = t.rqt) (g : TagIdx) : s.tag g = t.tag g := by unfold State.tag; rw [h]

end Sys2Proof.Machine
end

