-- ==== Sys2Proof/Laws/Memory.lean ====
section
/-! SUPPORT. Station memory: a write keeps the canonical form, a read after a write, and the bytes that a run of writes
leaves alone. -/
namespace Sys2Proof.Machine

theorem wfFrom_mono {lo hi : Nat} (h : lo ≤ hi) : ∀ {m : Memory}, Memory.wfFrom hi m = true → Memory.wfFrom lo m = true
  | [], _ => rfl
  | (k, b) :: m, w => by
    simp only [Memory.wfFrom, Bool.and_eq_true, decide_eq_true_eq] at w ⊢
    exact ⟨⟨⟨by omega, w.1.1.2⟩, w.1.2⟩, w.2⟩

theorem wfFrom_write {a : Nat} (b : Byte) (ha : a < Config.memoryBytes) :
    ∀ {lo : Nat} {m : Memory}, lo ≤ a → Memory.wfFrom lo m = true → Memory.wfFrom lo (m.write a b) = true
  | lo, [], hl, _ => by
    unfold Memory.write
    split
    · rfl
    · simp_all [Memory.wfFrom]
  | lo, (k, c) :: m, hl, w => by
    have w' := w
    simp only [Memory.wfFrom, Bool.and_eq_true, decide_eq_true_eq] at w'
    unfold Memory.write
    split
    · rename_i hak
      split
      · exact w
      · simp_all [Memory.wfFrom]
    · split
      · rename_i hak
        subst hak
        split
        · exact wfFrom_mono (by omega) w'.2
        · simp_all [Memory.wfFrom]
      · have := wfFrom_write b ha (lo := k + 1) (m := m) (by omega) w'.2
        simp_all [Memory.wfFrom]

/-- A write to an offset of station memory keeps the canonical form. -/
theorem wf_write {m : Memory} (a : Nat) (b : Byte) (ha : a < Config.memoryBytes) (h : m.wf = true) :
    (m.write a b).wf = true := wfFrom_write b ha (Nat.zero_le a) h

theorem addr_lt (a : Addr) : a.toNat < Config.memoryBytes := a.isLt

theorem wf_putByte {s : State} (a : Addr) (b : Byte) (h : s.memory.wf = true) : (s.putByte a b).memory.wf = true :=
  wf_write _ _ (addr_lt a) h

theorem wf_putBytes {bs : List Byte} : ∀ {s : State} {a : Addr}, s.memory.wf = true → (s.putBytes a bs).memory.wf = true := by
  induction bs with
  | nil => exact fun h => h
  | cons b bs ih => exact fun h => ih (wf_putByte _ b h)

/-- Below the first listed offset nothing is listed. -/
theorem read_below {a : Nat} : ∀ {lo : Nat} {m : Memory}, a < lo → Memory.wfFrom lo m = true →
    m.read a = Config.unwrittenByte
  | _, [], _, _ => rfl
  | lo, (k, b) :: m, h, w => by
    simp only [Memory.wfFrom, Bool.and_eq_true, decide_eq_true_eq] at w
    unfold Memory.read
    rw [if_neg (by omega)]
    exact read_below (lo := k + 1) (by omega) w.2

theorem read_write_self_from {a : Nat} (b : Byte) : ∀ {lo : Nat} {m : Memory}, Memory.wfFrom lo m = true →
    (m.write a b).read a = b
  | _, [], _ => by
    unfold Memory.write
    split
    · simp_all [Memory.read]
    · simp [Memory.read]
  | lo, (k, c) :: m, w => by
    simp only [Memory.wfFrom, Bool.and_eq_true, decide_eq_true_eq] at w
    unfold Memory.write
    split
    · rename_i hak
      split
      · rename_i hb
        unfold Memory.read
        rw [if_neg (by omega), read_below (lo := k + 1) (by omega) w.2, hb]
      · simp [Memory.read]
    · split
      · rename_i hak
        split
        · rename_i hb
          rw [read_below (lo := k + 1) (by omega) w.2, hb]
        · simp [Memory.read]
      · have := read_write_self_from (a := a) b w.2
        unfold Memory.read
        rw [if_neg (by omega)]
        exact this

/-- A byte reads as what was written to it. -/
theorem read_write_self {m : Memory} (a : Nat) (b : Byte) (h : m.wf = true) : (m.write a b).read a = b :=
  read_write_self_from b h

/-- A write leaves every other byte as it was. -/
theorem read_write_ne {a x : Nat} (b : Byte) (hne : x ≠ a) : ∀ (m : Memory), (m.write a b).read x = m.read x
  | [] => by
    unfold Memory.write
    split
    · rfl
    · simp [Memory.read, Ne.symm hne]
  | (k, c) :: m => by
    unfold Memory.write
    split
    · split
      · rfl
      · simp [Memory.read, Ne.symm hne]
    · split
      · rename_i hak
        subst hak
        split <;> simp [Memory.read, Ne.symm hne]
      · simp only [Memory.read]
        split
        · rfl
        · exact read_write_ne b hne m

theorem byteAt_putByte_self (s : State) (a : Addr) (b : Byte) (h : s.memory.wf = true) : (s.putByte a b).byteAt a = b :=
  read_write_self _ _ h

theorem byteAt_putByte_ne (s : State) {a x : Addr} (b : Byte) (h : x ≠ a) : (s.putByte a b).byteAt x = s.byteAt x :=
  read_write_ne b (fun e => h (BitVec.eq_of_toNat_eq e)) _

/-- A run of writes leaves every byte outside it as it was. -/
theorem byteAt_putBytes_outside (x : Addr) : ∀ (bs : List Byte) (s : State) (a : Addr),
    (∀ k, k < bs.length → x ≠ a + addr k) → (s.putBytes a bs).byteAt x = s.byteAt x
  | [], _, _, _ => rfl
  | b :: bs, s, a, h => by
    have h0 : x ≠ a := by
      have := h 0 (by simp)
      simpa [addr] using this
    rw [State.putBytes, byteAt_putBytes_outside x bs (s.putByte a b) (a + 1)]
    · exact byteAt_putByte_ne s b h0
    · intro k hk e
      apply h (k + 1) (by simpa using hk)
      rw [e, BitVec.add_assoc]
      congr 1
      simp [addr, BitVec.ofNat_add, BitVec.add_comm]

@[simp] theorem putBytes_lpc (s : State) (a : Addr) (bs : List Byte) : (s.putBytes a bs).lpc = s.lpc := by
  induction bs generalizing s a with
  | nil => rfl
  | cons b bs ih => exact (ih _ _).trans rfl

@[simp] theorem putBytes_liu (s : State) (a : Addr) (bs : List Byte) : (s.putBytes a bs).liu = s.liu := by
  induction bs generalizing s a with
  | nil => rfl
  | cons b bs ih => exact (ih _ _).trans rfl

@[simp] theorem putBytes_pub (s : State) (a : Addr) (bs : List Byte) : (s.putBytes a bs).pub = s.pub := by
  induction bs generalizing s a with
  | nil => rfl
  | cons b bs ih => exact (ih _ _).trans rfl

@[simp] theorem putBytes_subs (s : State) (a : Addr) (bs : List Byte) : (s.putBytes a bs).subs = s.subs := by
  induction bs generalizing s a with
  | nil => rfl
  | cons b bs ih => exact (ih _ _).trans rfl

@[simp] theorem putBytes_dpc (s : State) (a : Addr) (bs : List Byte) : (s.putBytes a bs).dpc = s.dpc := by
  induction bs generalizing s a with
  | nil => rfl
  | cons b bs ih => exact (ih _ _).trans rfl

@[simp] theorem putBytes_rqt (s : State) (a : Addr) (bs : List Byte) : (s.putBytes a bs).rqt = s.rqt := by
  induction bs generalizing s a with
  | nil => rfl
  | cons b bs ih => exact (ih _ _).trans rfl

@[simp] theorem putBytes_pdu (s : State) (a : Addr) (bs : List Byte) : (s.putBytes a bs).pdu = s.pdu := by
  induction bs generalizing s a with
  | nil => rfl
  | cons b bs ih => exact (ih _ _).trans rfl

@[simp] theorem putBytes_pending (s : State) (a : Addr) (bs : List Byte) : (s.putBytes a bs).pending = s.pending := by
  induction bs generalizing s a with
  | nil => rfl
  | cons b bs ih => exact (ih _ _).trans rfl

@[simp] theorem putBytes_freeIndex (s : State) (a : Addr) (bs : List Byte) : (s.putBytes a bs).freeIndex = s.freeIndex := by
  induction bs generalizing s a with
  | nil => rfl
  | cons b bs ih => exact (ih _ _).trans rfl

end Sys2Proof.Machine
end

