-- ==== Sys2Proof/Laws/CacheSide.lean ====
section
/-! SUPPORT. What the operations of the subscription table, the cache and the request tracker leave alone: LPC, LIU, PUB, PDU,
station memory, the command queue and the count of free values. -/
namespace Sys2Proof.Machine

/-- `t` differs from `s` in the subscription table, the cache and the request tracker at most. -/
structure CacheSide (s t : State) : Prop where
  lpc       : t.lpc = s.lpc
  liu       : t.liu = s.liu
  pub       : t.pub = s.pub
  pdu       : t.pdu = s.pdu
  memory    : t.memory = s.memory
  pending   : t.pending = s.pending
  freeIndex : t.freeIndex = s.freeIndex

theorem CacheSide.refl (s : State) : CacheSide s s := ⟨rfl, rfl, rfl, rfl, rfl, rfl, rfl⟩

theorem CacheSide.trans {s t u : State} (h : CacheSide s t) (k : CacheSide t u) : CacheSide s u :=
  ⟨k.lpc.trans h.lpc, k.liu.trans h.liu, k.pub.trans h.pub, k.pdu.trans h.pdu, k.memory.trans h.memory,
    k.pending.trans h.pending, k.freeIndex.trans h.freeIndex⟩

theorem CacheSide.foldl {α : Type} {f : State → α → State} (hf : ∀ s x, CacheSide s (f s x)) :
    ∀ (l : List α) (s : State), CacheSide s (l.foldl f s)
  | [], s => .refl s
  | x :: l, s => (hf s x).trans (CacheSide.foldl hf l (f s x))

theorem CacheSide.ite {c : Prop} [Decidable c] {s t u : State} (h : CacheSide s t) (k : CacheSide s u) :
    CacheSide s (if c then t else u) := by split <;> assumption

theorem modSub_cacheSide (s : State) (i : SubIdx) (f : Sub → Sub) : CacheSide s (s.modSub i f) :=
  ⟨rfl, rfl, rfl, rfl, rfl, rfl, rfl⟩

theorem setLine_cacheSide (s : State) (l : LineIdx) (x : Line) : CacheSide s (s.setLine l x) :=
  ⟨rfl, rfl, rfl, rfl, rfl, rfl, rfl⟩

theorem mapLines_cacheSide (s : State) (f : Line → Line) : CacheSide s (s.mapLines f) :=
  ⟨rfl, rfl, rfl, rfl, rfl, rfl, rfl⟩

theorem setEntry_cacheSide (s : State) (i : SubIdx) (q : Seq) (e : Entry) : CacheSide s (s.setEntry i q e) :=
  mapLines_cacheSide _ _

theorem mapEntries_cacheSide (s : State) (i : SubIdx) (f : Seq → Entry → Entry) : CacheSide s (s.mapEntries i f) :=
  mapLines_cacheSide _ _

theorem releaseLines_cacheSide (s : State) (i : SubIdx) : CacheSide s (s.releaseLines i) := mapLines_cacheSide _ _

theorem trimLines_cacheSide (s : State) (i : SubIdx) : CacheSide s (s.trimLines i) := by
  unfold State.trimLines
  dsimp only
  split
  · split
    · exact (mapLines_cacheSide _ _).trans (setLine_cacheSide _ _ _)
    · exact mapLines_cacheSide _ _
  · exact mapLines_cacheSide _ _

theorem cutAt_cacheSide (s : State) (i : SubIdx) (x : Seq) : CacheSide s (s.cutAt i x) := by
  unfold State.cutAt
  split
  · exact ((mapEntries_cacheSide _ _ _).trans (modSub_cacheSide _ _ _)).trans (trimLines_cacheSide _ _)
  · exact .refl s

theorem repeatWhile_cacheSide {f : State → Option State} (hf : ∀ s t, f s = some t → CacheSide s t) :
    ∀ (n : Nat) (s : State), CacheSide s (repeatWhile f n s)
  | 0, s => .refl s
  | n + 1, s => by
    unfold repeatWhile
    split
    · exact .refl s
    · rename_i t ht
      exact (hf s t ht).trans (repeatWhile_cacheSide hf n t)

theorem grantOnce_cacheSide (s t : State) (h : grantOnce s = some t) : CacheSide s t := by
  unfold grantOnce at h
  split at h
  · split at h
    · split at h
      · exact absurd h (by simp)
      · injection h with h; subst h; exact ⟨rfl, rfl, rfl, rfl, rfl, rfl, rfl⟩
    · exact absurd h (by simp)
  · exact absurd h (by simp)

theorem moveRetryOnce_cacheSide (s t : State) (h : moveRetryOnce s = some t) : CacheSide s t := by
  unfold moveRetryOnce at h
  split at h
  · exact absurd h (by simp)
  · split at h
    · injection h with h; subst h; exact ⟨rfl, rfl, rfl, rfl, rfl, rfl, rfl⟩
    · exact absurd h (by simp)

theorem runGrants_cacheSide (s : State) : CacheSide s (runGrants s) :=
  (repeatWhile_cacheSide moveRetryOnce_cacheSide _ _).trans (repeatWhile_cacheSide grantOnce_cacheSide _ _)

theorem claim_cacheSide (s : State) (i : SubIdx) (q : Request) : CacheSide s (s.claim i q) :=
  (modSub_cacheSide _ _ _).trans (runGrants_cacheSide _)

theorem freeTag_cacheSide (s : State) (t : TagIdx) : CacheSide s (s.freeTag t) := ⟨rfl, rfl, rfl, rfl, rfl, rfl, rfl⟩

theorem cancelRequests_cacheSide (s : State) (i : SubIdx) : CacheSide s (s.cancelRequests i) :=
  ⟨rfl, rfl, rfl, rfl, rfl, rfl, rfl⟩

theorem takeSpare_cacheSide (i : SubIdx) (s : State) (g : Seq) : CacheSide s (State.takeSpare i s g) := by
  unfold State.takeSpare
  split
  · exact setLine_cacheSide _ _ _
  · exact .refl s

theorem borrow_cacheSide (s : State) (i v : SubIdx) (g : Seq) : CacheSide s (s.borrow i v g) := by
  unfold State.borrow
  split
  · exact (setLine_cacheSide _ _ _).trans (cutAt_cacheSide _ _ _)
  · exact .refl s

theorem issueFetch_cacheSide (s : State) (i : SubIdx) (c : Cover) : CacheSide s (s.issueFetch i c) := by
  unfold State.issueFetch
  refine CacheSide.trans ?_ (claim_cacheSide _ _ _)
  refine CacheSide.trans ?_ (modSub_cacheSide _ _ _)
  refine CacheSide.trans ?_ (mapEntries_cacheSide _ _ _)
  have h := CacheSide.foldl (takeSpare_cacheSide i) (c.groups.take c.spare) s
  split
  · exact h.trans (borrow_cacheSide _ _ _ _)
  · exact h

theorem evaluateOnce_cacheSide (s : State) (i : SubIdx) : CacheSide s (s.evaluateOnce i).state := by
  unfold State.evaluateOnce
  dsimp only
  split
  · split
    · exact (modSub_cacheSide _ _ _).trans (issueFetch_cacheSide _ _ _)
    · split
      · exact ⟨rfl, rfl, rfl, rfl, rfl, rfl, rfl⟩
      · exact ⟨rfl, rfl, rfl, rfl, rfl, rfl, rfl⟩
  · exact ⟨rfl, rfl, rfl, rfl, rfl, rfl, rfl⟩

theorem evaluations_cacheSide : ∀ (n : Nat) (is : List SubIdx) (s : State), CacheSide s (evaluations n is s)
  | 0, _, s => .refl s
  | _ + 1, [], s => .refl s
  | n + 1, i :: rest, s => by
    have h := evaluateOnce_cacheSide s i
    unfold evaluations
    split
    · rename_i t e
      rw [e] at h
      exact h.trans (evaluations_cacheSide n _ t)
    · rename_i t c e
      rw [e] at h
      exact h.trans (evaluations_cacheSide n _ t)

theorem evaluate_cacheSide (s : State) (is : List SubIdx) : CacheSide s (s.evaluate is) := evaluations_cacheSide _ _ _

theorem evaluateChanged_cacheSide (s : State) (i : SubIdx) (b : Sub) : CacheSide s (s.evaluateChanged i b) :=
  CacheSide.ite (.refl s) (evaluate_cacheSide _ _)

theorem lineWaitTurn_cacheSide (s : State) (i : SubIdx) : CacheSide s (lineWaitTurn s i) := by
  have h := evaluateOnce_cacheSide s i
  unfold lineWaitTurn
  split
  · split
    · rename_i t e
      rw [e] at h
      exact h
    · rename_i t c e
      rw [e] at h
      refine h.trans (CacheSide.trans ?_ (evaluations_cacheSide _ _ _))
      exact CacheSide.ite ⟨rfl, rfl, rfl, rfl, rfl, rfl, rfl⟩ (.refl _)
  · exact .refl s

theorem lineWaitRound_cacheSide (s : State) : CacheSide s (lineWaitRound s) :=
  CacheSide.foldl lineWaitTurn_cacheSide _ s

theorem applyTail_cacheSide (s : State) (i : SubIdx) (t : Seq) (r : Half) : CacheSide s (s.applyTail i t r) := by
  unfold State.applyTail
  dsimp only
  split
  · split
    · exact modSub_cacheSide _ _ _
    · split
      · split
        · exact (modSub_cacheSide _ _ _).trans (cutAt_cacheSide _ _ _)
        · exact modSub_cacheSide _ _ _
      · exact .refl s
  · exact .refl s

theorem acceptImage_cacheSide (i : SubIdx) (first : Seq) (n : Nat) (s : State) (im : Image) :
    CacheSide s (acceptImage i first n s im) := CacheSide.ite (setEntry_cacheSide _ _ _ _) (.refl s)

theorem advanceFill_cacheSide (s : State) (i : SubIdx) : CacheSide s (s.advanceFill i) := by
  unfold State.advanceFill
  exact modSub_cacheSide _ _ _

theorem noteAnswer_cacheSide (s : State) (i : SubIdx) : CacheSide s (s.noteAnswer i) := by
  unfold State.noteAnswer
  split
  · exact .refl s
  · exact modSub_cacheSide _ _ _
  · split
    · exact modSub_cacheSide _ _ _
    · exact .refl s

theorem flushSub_cacheSide (s : State) (i : SubIdx) (alone : Bool) : CacheSide s (s.flushSub i alone) := by
  unfold State.flushSub
  exact ((modSub_cacheSide _ _ _).trans (cutAt_cacheSide _ _ _)).trans (modSub_cacheSide _ _ _)

end Sys2Proof.Machine
end

