-- ==== Sys2Proof/Laws/ConsumerSide.lean ====
section
/-! SUPPORT. What the ends, deliveries and rounds of the subscription units leave alone: PUB, the command queue, LPC but for the
notice queue and its loss count, LIU but for the one-off FIFO. -/
namespace Sys2Proof.Machine

/-- `t` has the publications, the commands, the command slot, the configuration and the replies of `s`. -/
structure ConsumerSide (s t : State) : Prop where
  pub     : t.pub = s.pub
  pending : t.pending = s.pending
  lpc     : t.lpc = { s.lpc with notices := t.lpc.notices, lost := t.lpc.lost, dropped := t.lpc.dropped }
  liu     : t.liu = { s.liu with oneOff := t.liu.oneOff }

theorem ConsumerSide.refl (s : State) : ConsumerSide s s := ⟨rfl, rfl, rfl, rfl⟩

theorem ConsumerSide.trans {s t u : State} (h : ConsumerSide s t) (k : ConsumerSide t u) : ConsumerSide s u :=
  ⟨k.pub.trans h.pub, k.pending.trans h.pending, by rw [k.lpc, h.lpc], by rw [k.liu, h.liu]⟩

theorem ConsumerSide.config {s t : State} (h : ConsumerSide s t) : t.config = s.config := by
  unfold State.config; rw [h.lpc]

theorem CacheSide.consumer {s t : State} (h : CacheSide s t) : ConsumerSide s t :=
  ⟨h.pub, h.pending, by rw [h.lpc], by rw [h.liu]⟩

theorem ConsumerSide.ite {c : Prop} [Decidable c] {s t u : State} (h : ConsumerSide s t) (k : ConsumerSide s u) :
    ConsumerSide s (if c then t else u) := by split <;> assumption

theorem ConsumerSide.foldl {α : Type} {f : State → α → State} (hf : ∀ s x, ConsumerSide s (f s x)) :
    ∀ (l : List α) (s : State), ConsumerSide s (l.foldl f s)
  | [], s => .refl s
  | x :: l, s => (hf s x).trans (ConsumerSide.foldl hf l (f s x))

theorem repeatWhile_consumerSide {f : State → Option State} (hf : ∀ s t, f s = some t → ConsumerSide s t) :
    ∀ (n : Nat) (s : State), ConsumerSide s (repeatWhile f n s)
  | 0, s => .refl s
  | n + 1, s => by
    unfold repeatWhile
    split
    · exact .refl s
    · rename_i t ht
      exact (hf s t ht).trans (repeatWhile_consumerSide hf n t)

/-! ### Notices, one-off frames, blocks -/

theorem post_consumerSide (s : State) (n : Notice) : ConsumerSide s (s.post n) := by
  unfold State.post; split <;> exact ⟨rfl, rfl, rfl, rfl⟩

theorem postSub_consumerSide (s : State) (k : NoticeKind) (i : SubIdx) (b : Byte) (w : Word) :
    ConsumerSide s (s.postSub k i b w) := post_consumerSide _ _

theorem placeOneOff_consumerSide (s : State) (f : Frame) : ConsumerSide s (s.placeOneOff f) := by
  unfold State.placeOneOff; split <;> exact ⟨rfl, rfl, rfl, rfl⟩

theorem modSub_consumerSide (s : State) (i : SubIdx) (f : Sub → Sub) : ConsumerSide s (s.modSub i f) := ⟨rfl, rfl, rfl, rfl⟩

theorem mapBlocks_consumerSide (s : State) (f : Block → Block) : ConsumerSide s (s.mapBlocks f) := ⟨rfl, rfl, rfl, rfl⟩

theorem discardBlocks_consumerSide (s : State) (i : SubIdx) (p : Seq → Bool) : ConsumerSide s (s.discardBlocks i p) :=
  ⟨rfl, rfl, rfl, rfl⟩

theorem putBytes_consumerSide (s : State) (a : Addr) (bs : List Byte) : ConsumerSide s (s.putBytes a bs) :=
  ⟨by simp, by simp, by simp, by simp⟩

theorem startPull_consumerSide (s : State) (i : SubIdx) (im : Image) (bs : List Nat) :
    ConsumerSide s (s.startPull i im bs) := by
  unfold State.startPull
  exact ((setEntry_cacheSide _ _ _ _).trans (modSub_cacheSide _ _ _)).consumer

/-! ### Flushes -/

theorem postFlushAll_consumerSide (s : State) : ConsumerSide s s.postFlushAll := by
  have h := post_consumerSide s { kind := .flushDone, index := 255, reason := if s.dpc.flushEnded then 1 else 0,
                                  value := BitVec.ofNat 32 s.dpc.flushAdded.length }
  exact ⟨h.pub, h.pending, h.lpc, h.liu⟩

theorem leaveFlushAll_consumerSide (s : State) (i : SubIdx) : ConsumerSide s (s.leaveFlushAll i) := by
  unfold State.leaveFlushAll
  dsimp only
  split
  · split
    · exact (modSub_consumerSide _ _ _).trans (postFlushAll_consumerSide _)
    · exact modSub_consumerSide _ _ _
  · exact .refl s

theorem payFlushNotice_consumerSide (s : State) (i : SubIdx) (b : Byte) : ConsumerSide s (s.payFlushNotice i b) :=
  ConsumerSide.ite ((modSub_consumerSide _ _ _).trans (postSub_consumerSide _ _ _ _ _)) (.refl s)

theorem flushTest_consumerSide (s : State) (i : SubIdx) : ConsumerSide s (s.flushTest i) :=
  ConsumerSide.ite (((modSub_consumerSide _ _ _).trans (payFlushNotice_consumerSide _ _ _)).trans
    (leaveFlushAll_consumerSide _ _)) (.refl s)

theorem markFlushEnded_consumerSide (s : State) : ConsumerSide s s.markFlushEnded := ⟨rfl, rfl, rfl, rfl⟩

theorem settleFlush_consumerSide (s : State) (i : SubIdx) (b : Bool) : ConsumerSide s (s.settleFlush i b) := by
  unfold State.settleFlush
  dsimp only
  split
  · split
    · exact ((payFlushNotice_consumerSide _ _ _).trans (markFlushEnded_consumerSide _)).trans
        (leaveFlushAll_consumerSide _ _)
    · exact payFlushNotice_consumerSide _ _ _
  · exact .refl s

/-! ### Ends -/

theorem forcedEnd_consumerSide (s : State) (i : SubIdx) (e : EndReason) : ConsumerSide s (s.forcedEnd i e) := by
  unfold State.forcedEnd
  refine ConsumerSide.trans ?_ (settleFlush_consumerSide _ _ _)
  refine ConsumerSide.trans ?_ (postSub_consumerSide _ _ _ _ _)
  refine ConsumerSide.trans ?_ (modSub_consumerSide _ _ _)
  refine ConsumerSide.trans ?_ (releaseLines_cacheSide _ _).consumer
  exact (cancelRequests_cacheSide _ _).consumer.trans (discardBlocks_consumerSide _ _ _)

theorem completeFinishing_consumerSide (s : State) (i : SubIdx) : ConsumerSide s (s.completeFinishing i) := by
  unfold State.completeFinishing
  refine ConsumerSide.trans ?_ (postSub_consumerSide _ _ _ _ _)
  refine ConsumerSide.trans ?_ (modSub_consumerSide _ _ _)
  refine ConsumerSide.trans ?_ (releaseLines_cacheSide _ _).consumer
  refine ConsumerSide.trans ?_ (placeOneOff_consumerSide _ _)
  exact (cancelRequests_cacheSide _ _).consumer.trans (discardBlocks_consumerSide _ _ _)

theorem completeLeave_consumerSide (s : State) (i : SubIdx) : ConsumerSide s (s.completeLeave i) := by
  unfold State.completeLeave
  refine ConsumerSide.trans ?_ (postSub_consumerSide _ _ _ _ _)
  refine ConsumerSide.trans ?_ (modSub_consumerSide _ _ _)
  refine ConsumerSide.trans ?_ (releaseLines_cacheSide _ _).consumer
  exact (discardBlocks_consumerSide _ _ _).trans (placeOneOff_consumerSide _ _)

/-! ### Rounds and deliveries -/

theorem grantBlocks_consumerSide (s : State) (i : SubIdx) (q : Seq) (n : Nat) : ConsumerSide s (s.grantBlocks i q n) :=
  ⟨rfl, rfl, rfl, rfl⟩

theorem startGranted_consumerSide (s : State) (i : SubIdx) (im : Image) (got : List Nat) :
    ConsumerSide s (s.startGranted i im got) := by
  have h := startPull_consumerSide s i im (s.padBlocks got im)
  exact ⟨h.pub, h.pending, h.lpc, h.liu⟩

theorem presentStart_consumerSide (s : State) (i : SubIdx) (q : Seq) (got : List Nat) :
    ConsumerSide s (s.presentStart i q got) := by
  unfold State.presentStart
  split
  · exact startGranted_consumerSide _ _ _ _
  · exact (discardBlocks_consumerSide _ _ _).trans (noteAnswer_cacheSide _ _).consumer

theorem blockGrantTurn_consumerSide (s : State) (i : SubIdx) : ConsumerSide s (blockGrantTurn s i) := by
  unfold blockGrantTurn
  split
  · exact .refl s
  · exact ConsumerSide.ite ((grantBlocks_consumerSide _ _ _ _).trans (presentStart_consumerSide _ _ _ _)) (.refl s)

theorem blockGrantRound_consumerSide (s : State) : ConsumerSide s (blockGrantRound s) :=
  ConsumerSide.foldl blockGrantTurn_consumerSide _ s

theorem writeRecord_consumerSide (s : State) (i : SubIdx) : ConsumerSide s (s.writeRecord i) := by
  unfold State.writeRecord
  split
  · exact putBytes_consumerSide _ _ _
  · exact .refl s

theorem countRecord_consumerSide (s : State) (i : SubIdx) : ConsumerSide s (s.countRecord i) := ⟨rfl, rfl, rfl, rfl⟩

theorem handOn_consumerSide (s : State) : ConsumerSide s (handOn s) :=
  ((runGrants_cacheSide _).consumer.trans (blockGrantRound_consumerSide _)).trans (lineWaitRound_cacheSide _).consumer

theorem finishingTest_consumerSide (s : State) (i : SubIdx) : ConsumerSide s (s.finishingTest i) :=
  ConsumerSide.ite ((completeFinishing_consumerSide _ _).trans (handOn_consumerSide _)) (.refl s)

theorem deliverFor_consumerSide (s : State) (i : SubIdx) : ConsumerSide s (s.deliverFor i) := by
  unfold State.deliverFor
  exact (((((writeRecord_consumerSide _ _).trans (mapBlocks_consumerSide _ _)).trans (countRecord_consumerSide _ _)).trans
    (setEntry_cacheSide _ _ _ _).consumer).trans (modSub_consumerSide _ _ _)).trans (trimLines_cacheSide _ _).consumer

theorem deliverOnce_consumerSide (s t : State) (h : deliverOnce s = some t) : ConsumerSide s t := by
  unfold deliverOnce at h
  split at h
  · exact absurd h (by simp)
  · injection h with h
    subst h
    exact (((deliverFor_consumerSide _ _).trans (lineWaitRound_cacheSide _).consumer).trans
      (evaluate_cacheSide _ _).consumer).trans (finishingTest_consumerSide _ _)

theorem deliverAll_consumerSide (s : State) : ConsumerSide s (deliverAll s) :=
  repeatWhile_consumerSide deliverOnce_consumerSide _ _

theorem settle_consumerSide (s : State) : ConsumerSide s (settle s) :=
  (handOn_consumerSide _).trans (deliverAll_consumerSide _)

theorem leaveTest_consumerSide (s : State) (i : SubIdx) : ConsumerSide s (s.leaveTest i) :=
  ConsumerSide.ite ((completeLeave_consumerSide _ _).trans (settle_consumerSide _)) (.refl s)

theorem endNow_consumerSide (s : State) (i : SubIdx) (e : EndReason) : ConsumerSide s (s.endNow i e) :=
  (forcedEnd_consumerSide _ _ _).trans (settle_consumerSide _)

theorem abandonPull_consumerSide (s : State) (i : SubIdx) (q : Seq) : ConsumerSide s (s.abandonPull i q) := by
  unfold State.abandonPull
  dsimp only
  split
  · refine ConsumerSide.trans ?_ (trimLines_cacheSide _ _).consumer
    exact ⟨rfl, rfl, rfl, rfl⟩
  · exact .refl s

theorem enterFinishing_consumerSide (s : State) (i : SubIdx) (t : Seq) (r : Half) :
    ConsumerSide s (s.enterFinishing i t r) := by
  unfold State.enterFinishing
  dsimp only
  refine ConsumerSide.trans ?_ (postSub_consumerSide _ _ _ _ _)
  split
  · exact ((modSub_cacheSide _ _ _).trans (cutAt_cacheSide _ _ _)).consumer
  · exact modSub_consumerSide _ _ _

theorem takeTail_consumerSide (s : State) (i : SubIdx) (t : TailBlock) : ConsumerSide s (s.takeTail i t) := by
  unfold State.takeTail
  dsimp only
  split
  · refine (applyTail_cacheSide s i t.tail t.revision).consumer.trans ?_
    split
    · exact ConsumerSide.trans (t := State.restartPoll _ i) (modSub_consumerSide _ _ _) (enterFinishing_consumerSide _ _ _ _)
    · exact modSub_consumerSide _ _ _
  · exact (applyTail_cacheSide _ _ _ _).consumer

theorem takeAnnounce_consumerSide (s : State) (i : SubIdx) (t : TailBlock) : ConsumerSide s (s.takeAnnounce i t) :=
  (((takeTail_consumerSide _ _ _).trans (lineWaitRound_cacheSide _).consumer).trans
    (evaluateChanged_cacheSide _ _ _).consumer).trans (finishingTest_consumerSide _ _)

end Sys2Proof.Machine
end

