-- ==== Sys2Proof/Tests/Slice0.lean ====
section
/-! SUPPORT. Tests: the refused ill-formed terms, what single commands do, and for each statement with hypotheses a concrete
state and operands that meet them together. -/
namespace Sys2Proof.Tests
open Sys2Proof Sys2Proof.Machine

set_option Elab.async false

/-! ### Well-formedness refuses the ill-formed terms -/

theorem test_wf_refuses_flush_255 : Instr.wf (.flush 255) = false := by decide
theorem test_wf_takes_flush_0 : Instr.wf (.flush 0) = true := by decide
theorem test_wf_refuses_defined_code : Instr.wf (.undefinedCommandCode 2) = false := by decide
theorem test_wf_takes_undefined_codes : Instr.wf (.undefinedCommandCode 0) = true ∧ Instr.wf (.undefinedCommandCode 14) = true := by
  decide
theorem test_wf_refuses_access_without_strobe : Instr.wf (.localMemoryAccess false false 0 0) = false := by decide
theorem test_wf_refuses_key_96 : Instr.wf (.arbitration [96]) = false ∧ Instr.wf (.arbitration [95]) = true := by decide

/-! ### Small states -/

/-- A configuration of small numbers, of fields that START takes but for the sizes of the pool and the queue. -/
def conf : StartConfig :=
  { incarnation := 7, requestTimeout := 100, retryLimit := 2, keepalive := 1000, silenceLimit := 5000, pollInterval := 500,
    minFetch := 2, maxFetch := 8, fetchesPerSub := 2, releaseBatch := 4, queueBase := 0x1000, queueCapacity := 4,
    poolBase := 0x10000, poolBlocks := 4, noticeEnable := true, deliveryEnable := true }

/-- Station 3, RUNNING, with nothing going on. -/
def idle : State :=
  { State.reset with
    lpc := { Lpc.reset with state := .running, stationNumber := 3, config := conf }
    pdu := { Pdu.reset with blocks := List.replicate 4 .free, capacity := 4 } }

/-- Station 3 in CONFIG. -/
def inConfig : State := { State.reset with lpc := { Lpc.reset with state := .config, stationNumber := 3 } }

/-- An OPEN ring of 16 slots at 4000h, with 6 descriptors of which 4 are committed. -/
def opened : Ring :=
  { Ring.reset with
    state := .opened, epoch := 2, revision := 1, slotBase := 0x4000, slotCount := 16, tail := 6, commit := 4 }

/-- A member of it. -/
def member (h : Station) : Member := { station := h, incarnation := 8, mark := 2, silence := some 5000 }

/-- `idle` with ring 1 as given. -/
def withRing (g : Ring) : State := idle.modRing 1 fun _ => g

/-- An ACTIVE subscription to ring 1 of station 9, caught up. -/
def active : Sub :=
  { Sub.fresh 5 with
    state := .active, producer := 9, ring := 1, depth := 16, window := 2, incarnation := 8, epoch := 2, welcomed := true,
    poll := some 500, keepalive := some 1000 }

/-- An ACTIVE subscription that has asked for three descriptors. -/
def asked3 : Sub := { active with ap := 3, kt := 3, fetchesOut := 1 }

/-- `idle` with subscription 0 as given, holding line 0 with the entries given for group 0. -/
def withSub (b : Sub) (es : Vector Entry 8) : State :=
  (idle.modSub 0 fun _ => b).setLine 0 (.assigned 0 0 es)

/-- The state after a command. -/
def after (c : Instr) (s : State) : State :=
  match exec c s with
  | .next t => t
  | _ => s

/-! ### The command slot, reset and START -/

theorem test_witness_GoIgnoredInResetAndBusy :
    (Instr.commandCode .start = some 1 ∧ State.reset.lpc.state = .reset) ∧
    (let s := { inConfig with lpc := { inConfig.lpc with slot := .starting [] } }
     Instr.commandCode (.leave 0) = some 8 ∧ s.lpc.state ≠ .reset ∧ s.busy = true ∧ (after (.leave 3) s).lpc.arg0 = 3) := by
  decide +kernel

theorem test_witness_ConfigAndUndefinedCodes :
    (Instr.commandCode (.leave 0) = some 8 ∧ definedCode 8 = true ∧ (8 : Byte) ≠ 1 ∧ inConfig.lpc.state = .config ∧
      inConfig.lpc.slot = .idle ∧ (after (.leave 0) inConfig).lpc.res = 1) ∧
    (definedCode 14 = false ∧ idle.lpc.state ≠ .reset ∧ idle.lpc.slot = .idle ∧
      (after (.undefinedCommandCode 14) idle).lpc.res = 2) := by
  decide +kernel

theorem test_witness_ResetAndRelease :
    State.reset.lpc.state = .reset ∧ idle.lpc.state ≠ .reset ∧ (after (.resetRelease 3 3) State.reset).lpc.bitRate = 2 := by
  decide +kernel

/-- CONFIG with the words of a start record in memory and a START that reads them. -/
def starting (words : List Word) : State :=
  let s := (List.range words.length).foldl (fun s k => s.putBytes (addr (4 * k)) (wordBytes (words.getD k 0))) inConfig
  { s with lpc := { s.lpc with slot := .starting [] } }

/-- The words of a start record whose fields all pass. -/
def goodRecord : List Word :=
  [0x00640007, 0x138803E8, 0x020201F4, 0x03040208, 0x1000, 0x10, 0x10000, 0x10]

/-- A record of zeros fails at field 2; the good record's field values. -/
theorem test_witness_StartOutcomes :
    (idle.lpc.slot = .idle ∧ idle.lpc.state = .running) ∧ (inConfig.lpc.slot = .idle ∧ inConfig.lpc.state = .config) ∧
    (let s := starting []
     s.lpc.slot = .starting [] ∧ s.startValue [] 2 = 0 ∧
     (after .startCompletion s).lpc.res = 12 ∧ (after .startCompletion s).lpc.res0 = 2) ∧
    (starting goodRecord).lpc.slot = .starting [] ∧ (starting goodRecord).liu.oneOff = [] ∧
    (List.range 16).map ((starting goodRecord).startValue []) =
      [0, 7, 100, 2, 1000, 5000, 500, 2, 8, 2, 4, 0x1000, 16, 0x10000, 16, 3] ∧
    (after .startCompletion (starting goodRecord)).lpc.state = .running := by
  decide +kernel

/-- The values of `goodRecord` pass their ranges and rules, and those of a record of zeros fail at field 2 first. -/
theorem test_witness_startFieldOk :
    let v (i : Nat) : Nat := [0, 7, 100, 2, 1000, 5000, 500, 2, 8, 2, 4, 0x1000, 16, 0x10000, 16, 3].getD i 0
    (∀ i, 1 ≤ i → i ≤ 15 → startFieldOk v i) ∧ startFieldOk (fun _ => 0) 1 ∧ ¬ startFieldOk (fun _ => 0) 2 := by
  refine ⟨fun i h k => ?_, trivial, fun h => by simp [startFieldOk] at h⟩
  have : i = 1 ∨ i = 2 ∨ i = 3 ∨ i = 4 ∨ i = 5 ∨ i = 6 ∨ i = 7 ∨ i = 8 ∨ i = 9 ∨ i = 10 ∨ i = 11 ∨ i = 12 ∨ i = 13 ∨
    i = 14 ∨ i = 15 := by omega
  rcases this with rfl | rfl | rfl | rfl | rfl | rfl | rfl | rfl | rfl | rfl | rfl | rfl | rfl | rfl | rfl <;>
    simp [startFieldOk, sharesByte] <;> (try constructor) <;> intros <;> omega

/-! ### Ring commands -/

/-- The result code and the first result word of a command. -/
def result (c : Instr) (s : State) : Byte × Word := ((after c s).lpc.res, (after c s).lpc.res0)

theorem test_idle_ready : idle.ready := by unfold State.ready; decide +kernel

theorem test_withRing_ready : (withRing opened).ready := by unfold State.ready; decide +kernel

/-- One state, at which each clause of OPEN has arguments that meet it: the last ring, the highest end, an area that touches
another, one that shares a byte with it. -/
theorem test_witness_OpenOutcomes :
    result (.openRing 8 0x8000 16 0) (withRing opened) = (2, 0) ∧
    result (.openRing 1 0x8000 16 0) (withRing opened) = (1, 0) ∧
    result (.openRing 7 0x8000 15 0) (withRing opened) = (2, 0) ∧
    result (.openRing 7 0x8000 16 2) (withRing opened) = (2, 0) ∧
    result (.openRing 7 0x8008 16 0) (withRing opened) = (2, 0) ∧
    result (.openRing 7 0x3FF10 16 0) (withRing opened) = (2, 0) ∧
    result (.openRing 7 0x3FF00 16 1) (withRing opened) = (0, 1) ∧
    result (.openRing 7 0x40F0 16 0) (withRing opened) = (11, 0) ∧
    result (.openRing 7 0x4100 16 0) (withRing opened) = (0, 1) ∧
    result (.openRing 7 0x30 16 0) (withRing opened) = (11, 0) ∧
    result (.openRing 7 0xFF0 16 0) (withRing opened) = (11, 0) := by
  decide +kernel

/-- The slot areas of `opened` are taken for another ring, and no area at 8000h is. -/
theorem test_witness_areaTaken :
    (withRing opened).areaTaken 7 0x40F0 256 ∧ ¬ (withRing opened).areaTaken 7 0x8000 256 := by
  constructor
  · exact .inr (.inr (.inr ⟨1, by decide, by decide +kernel, 0x40F0, by decide, by decide, by decide +kernel, by decide +kernel⟩))
  · have h : ∀ q : RingIdx, q ≠ 7 → ((withRing opened).ring q).state ≠ .closed →
        ((withRing opened).ring q).slotBase.toNat = 0x4000 ∧ ((withRing opened).ring q).slotCount.toNat = 16 := by decide +kernel
    have c : (withRing opened).config = conf := by decide +kernel
    rintro (⟨x, h⟩ | ⟨x, h⟩ | ⟨x, h⟩ | ⟨q, h1, h2, x, h3⟩)
    · omega
    · rw [c] at h; simp [conf] at h; omega
    · rw [c] at h; simp [conf] at h; omega
    · have := h q h1 h2; rw [this.1, this.2] at h3; omega

theorem test_witness_slotCountOk : slotCountOk 16 ∧ slotCountOk 512 ∧ ¬ slotCountOk 1024 ∧ ¬ slotCountOk 0 := by
  unfold slotCountOk; decide

theorem test_witness_AdvanceChecks :
    result (.advance 8 1) (withRing opened) = (2, 0) ∧ result (.advance 0 1) (withRing opened) = (1, 0) ∧
    result (.advance 1 0) (withRing opened) = (2, 0) ∧ result (.advance 1 17) (withRing opened) = (2, 0) ∧
    result (.advance 1 11) (withRing opened) = (6, 10) ∧ (after (.advance 1 10) (withRing opened)).busy = true := by
  decide +kernel

/-- An ADVANCE of 2 whose slots, at 4060h and 4070h, are as the words given. -/
def advancing (words : List Word) : State :=
  let s := (List.range words.length).foldl (fun s k => s.putBytes (addr (0x4060 + 4 * k)) (wordBytes (words.getD k 0)))
    (withRing opened)
  { s with lpc := { s.lpc with
      slot := .advancing { ring := 1, start := 6, length := 2, judged := 0, part := [], bad := none } } }

theorem not_sharesByte {b n : Nat} {areas : List (Nat × Nat)} (h : ∀ a ∈ areas, b + n ≤ a.1 ∨ a.1 + a.2 ≤ b) :
    ∀ a ∈ areas, ¬ sharesByte b n a.1 a.2 := by
  rintro a m ⟨x, h1, h2, h3, h4⟩
  have := h a m
  omega

/-- A slot that passes the checks of Table 1-4, all five. -/
theorem slot_passes {s : State} {r : RingIdx} {q : Seq}
    (h : (s.slotAt (s.ring r) q).length.toNat ≤ 4096 ∧ (s.slotAt (s.ring r) q).flags &&& 0xFC = 0 ∧
      (s.slotAt (s.ring r) q).offset.toNat % 4 = 0 ∧
      ((s.slotAt (s.ring r) q).length = 0 ∨
        (s.slotAt (s.ring r) q).offset.toNat + (s.slotAt (s.ring r) q).length.toNat ≤ 262144))
    (areas : ∀ a ∈ fixedRegions s.config ++ s.publishedAreas,
      (s.slotAt (s.ring r) q).offset.toNat + (s.slotAt (s.ring r) q).length.toNat ≤ a.1 ∨
      a.1 + a.2 ≤ (s.slotAt (s.ring r) q).offset.toNat) : ∀ c, 1 ≤ c → c ≤ 5 → s.slotPasses r q c
  | 1, _, _ => h.1
  | 2, _, _ => h.2.1
  | 3, _, _ => h.2.2.1
  | 4, _, _ => h.2.2.2
  | 5, _, _ => not_sharesByte areas

/-- A slot that is too long does not pass the first check. -/
theorem slot_too_long {s : State} {r : RingIdx} {q : Seq} (h : ¬ (s.slotAt (s.ring r) q).length.toNat ≤ 4096) :
    ¬ s.slotPasses r q 1 := h

/-- An ADVANCE whose second slot fails the first check, and its result. -/
theorem test_witness_BadDescriptorRefusesAdvance :
    let s := advancing [0x20000, 100, 0, 0, 0x20000, 4097]
    (∀ i c, i < 1 → 1 ≤ c → c ≤ 5 → s.slotPasses 1 (6 + BitVec.ofNat 32 i) c) ∧ ¬ s.slotPasses 1 (6 + BitVec.ofNat 32 1) 1 ∧
    result .advanceCompletion s = (7, 1) := by
  refine ⟨fun i c hi => ?_, slot_too_long (by decide +kernel), by decide +kernel⟩
  obtain rfl : i = 0 := by omega
  exact slot_passes (by decide +kernel) (by decide +kernel) c

/-- An ADVANCE whose two slots pass, the second of length 0, and its result. -/
theorem test_witness_AdvancePublishes :
    let s := advancing [0x20000, 100, 0, 0, 0x3FFFC, 0]
    (∀ i c, i < 2 → 1 ≤ c → c ≤ 5 → s.slotPasses 1 (6 + BitVec.ofNat 32 i) c) ∧
    result .advanceCompletion s = (0, 8) ∧ (after .advanceCompletion s).wordAt 0x407C = 7 := by
  refine ⟨fun i c hi => ?_, by decide +kernel, by decide +kernel⟩
  have : i = 0 ∨ i = 1 := by omega
  rcases this with rfl | rfl <;> exact slot_passes (by decide +kernel) (by decide +kernel) c

/-- At the commit point, below it, at the tail, above it by less than half the circle, and by more. -/
theorem test_witness_RetractOutcomes :
    result (.retract 8 4) (withRing opened) = (2, 0) ∧ result (.retract 0 4) (withRing opened) = (1, 0) ∧
    result (.retract 1 7) (withRing opened) = (2, 0) ∧ result (.retract 1 3) (withRing opened) = (8, 4) ∧
    result (.retract 1 4) (withRing opened) = (0, 4) ∧ result (.retract 1 6) (withRing opened) = (0, 6) ∧
    ((after (.retract 1 4) (withRing opened)).ring 1).revision = 2 ∧
    ((after (.retract 1 6) (withRing opened)).ring 1).revision = 1 := by
  decide +kernel

theorem test_witness_WithdrawOutcomes :
    let members : Ring := { opened with roster := [member 4, member 9] }
    result (.withdraw 8 0) (withRing opened) = (2, 0) ∧ result (.withdraw 1 65536) (withRing opened) = (2, 0) ∧
    result (.withdraw 0 0) (withRing opened) = (1, 0) ∧
    ((after (.withdraw 1 65535) (withRing members)).ring 1).state = .withdrawing ∧
    (after (.withdraw 1 65535) (withRing members)).lpc.res1 = 2 ∧
    ((after (.withdraw 1 0) (withRing members)).ring 1).state = .closed ∧
    ((after (.withdraw 1 5) (withRing opened)).ring 1).state = .closed := by
  decide +kernel

theorem test_witness_RingStatusWords :
    result (.ringStatus 8 0) (withRing opened) = (2, 0) ∧ result (.ringStatus 1 2) (withRing opened) = (2, 0) ∧
    result (.ringStatus 1 0) (withRing opened) = (0, 6) ∧ result (.ringStatus 1 1) (withRing opened) = (0, 0x10002) ∧
    (after (.ringStatus 1 0) (withRing opened)).lpc.res1 = 2 + 1024 * 6 + 1048576 := by
  decide +kernel

/-! ### Subscription commands -/

/-- Depth 16, window 2. -/
def joinWord : Word := 0x210

/-- The arguments at the ends of their ranges, and beyond each; then the refusals in their order, and a JOIN that passes. -/
theorem test_witness_JoinOutcomes :
    result (.join 31 7 1 0x840) idle = (0, 0) ∧ result (.join 0 0 0 0x108) idle = (0, 0) ∧
    result (.join 32 7 1 0x840) idle = (2, 0) ∧ result (.join 31 8 1 0x840) idle = (2, 0) ∧
    result (.join 31 7 2 0x840) idle = (2, 0) ∧ result (.join 31 7 1 0x848) idle = (2, 0) ∧
    result (.join 31 7 1 0x940) idle = (2, 0) ∧ result (.join 31 7 1 0x040) idle = (2, 0) ∧
    result (.join 31 7 1 0x10840) idle = (2, 0) ∧ result (.join 3 1 0 joinWord) idle = (5, 0) ∧
    result (.join 9 1 0 joinWord) (withSub active emptyEntries) = (4, 0) ∧
    result (.join 9 2 0 joinWord) (withSub active emptyEntries) = (0, 1) ∧
    result (.join 9 1 0 joinWord)
      { idle with subs := Vector.replicate 24 { Sub.fresh 0 with state := .ended } } = (3, 0) := by
  decide +kernel

theorem test_witness_joinArgs : joinArgs 31 7 1 0x840 ∧ joinArgs 0 0 0 0x108 := by
  unfold joinArgs
  exact ⟨⟨by decide, by decide, by decide, ⟨8, by decide⟩, by decide, by decide, by decide⟩,
    ⟨by decide, by decide, by decide, ⟨1, by decide⟩, by decide, by decide, by decide⟩⟩

/-- What a JOIN on `idle` leaves: record 0 in JOINING, line 0 reserved, the request bound to tag 1 with use count 1. -/
theorem test_join_takes_record_line_and_tag :
    let t := after (.join 9 1 0 joinWord) idle
    (t.sub 0).state = .joining ∧ t.dpc.lines.get 0 = .reserved 0 ∧ (t.sub 0).claims = [] ∧ t.rqt.queue = [1] ∧
    (t.tag 1) = { useCount := 1, bound := some { sub := 0, request := .join false, attempts := 1, deadline := none } } := by
  decide +kernel

/-- A LEAVE of a FREE subscription, of an ACTIVE one, of one past the last. -/
theorem test_witness_LeaveOutcomes :
    result (.leave 24) idle = (2, 0) ∧ result (.leave 23) idle = (1, 0) ∧
    result (.leave 0) (withSub active emptyEntries) = (0, 0) ∧
    ((after (.leave 0) (withSub active emptyEntries)).sub 0).state = .ended ∧
    ((after (.leave 0) (withSub { active with claims := [.join false] } emptyEntries)).sub 0).poll = none := by
  decide +kernel

theorem test_witness_FlushCommands :
    result (.flush 24) idle = (2, 0) ∧ result (.flush 23) idle = (1, 0) ∧
    result (.flush 0) (withSub active emptyEntries) = (0, 6) ∧
    result (.flush 0) (withSub { active with state := .finishing, finalTail := some 3, generation := 255 } emptyEntries) =
      (0, 0) ∧
    result .flushAll (withSub active emptyEntries) = (0, 1) ∧ result .flushAll idle = (0, 0) ∧
    (after .flushAll (withSub active emptyEntries)).lpc.notices =
      [{ kind := .flushDone, index := 255, reason := 0, value := 1 }] := by
  decide +kernel

/-- A FLUSH with a FETCH in flight, which stays pending, and one whose only FETCH is a waiting claim, which completes. -/
theorem test_flush_pending_and_complete :
    let b : Sub := { active with ap := 3, kt := 3, fetchesOut := 1 }
    let asked : Vector Entry 8 := Vector.ofFn fun k => if k.val < 3 then .asked else .empty
    let claimed : Sub := { b with claims := [.fetch 0 3 5] }
    b.fetchesInFlight = 1 ∧ claimed.fetchesInFlight = 0 ∧
    ((after (.flush 0) (withSub b asked)).sub 0).flushPending = true ∧ (after (.flush 0) (withSub b asked)).lpc.notices = [] ∧
    (after (.flush 0) (withSub b asked)).entryAt 0 2 = .empty ∧ ((after (.flush 0) (withSub b asked)).sub 0).ap = 0 ∧
    ((after (.flush 0) (withSub claimed asked)).sub 0).flushPending = false ∧
    (after (.flush 0) (withSub claimed asked)).lpc.notices = [{ kind := .flushDone, index := 0, reason := 0, value := 6 }] := by
  decide +kernel

theorem test_witness_pointersOrdered : active.pointersOrdered ∧ asked3.pointersOrdered := by
  unfold Sub.pointersOrdered; decide

/-- Subscriptions 0 and 1 with a FETCH in flight each are flushed; 0 completes and leaves the set, and is flushed again: the
added count counts it once (R80). -/
theorem test_flush_all_counts_a_subscription_once :
    let s := (withSub asked3 emptyEntries).modSub 1 fun _ => { asked3 with ring := 2 }
    let t := after .flushAll s
    let u := after .flushAll ((((t.endFetch 0).flushTest 0)))
    t.dpc.flushAdded = [0, 1] ∧ (t.sub 0).inFlushAll = true ∧ (u.sub 0).inFlushAll = false ∧
    u.dpc.flushAdded = [0, 1] ∧ (((u.endFetch 1).flushTest 1)).lpc.notices =
      [{ kind := .flushDone, index := 255, reason := 0, value := 2 }] := by
  decide +kernel

theorem test_witness_DismissOutcomes :
    let ended : Sub := { Sub.fresh 5 with state := .ended, rm := 3, dp := 4 }
    result (.dismiss 24) idle = (2, 0) ∧ result (.dismiss 23) idle = (1, 0) ∧
    result (.dismiss 0) (withSub ended emptyEntries) = (10, 1) ∧
    result (.dismiss 0) (withSub { ended with dp := 3 } emptyEntries) = (0, 0) ∧
    (after (.dismiss 0) (withSub { ended with dp := 3 } emptyEntries)).sub 0 = Sub.fresh 5 := by
  decide +kernel

theorem test_witness_SubStatusWords :
    result (.subStatus 24 0) idle = (2, 0) ∧ result (.subStatus 23 5) idle = (2, 0) ∧
    result (.subStatus 23 4) idle = (0, 0) ∧
    result (.subStatus 0 0) (withSub active emptyEntries) = (0, 0x12214882) ∧
    (after (.subStatus 0 0) (withSub active emptyEntries)).lpc.res1 = 0x80002 ∧
    result (.subStatus 0 2) (withSub { active with pp := 1, fp := 2 } emptyEntries) = (0, 1) ∧
    (after (.subStatus 0 3) (withSub { active with ap := 3, kt := 4 } emptyEntries)).lpc.res1 = 4 := by
  decide +kernel

/-- `idle` with three records in the Delivery Queue, the oldest at the last place. -/
def delivered : State := { idle with pdu := { idle.pdu with readIndex := 3, writeIndex := 2, fill := 3 } }

theorem test_witness_AcceptOutcomes :
    result (.accept 4) delivered = (2, 0) ∧ result (.accept 3) delivered = (0, 2) ∧ result (.accept 0) delivered = (0, 3) ∧
    (after (.accept 1) delivered).lpc.res1 = 2 ∧ (after (.accept 1) delivered).pdu.fill = 2 := by
  decide +kernel

/-- A RETIRE past the last subscription, of a FREE one, out of order, and of the oldest record with its block, at the release
batch. -/
theorem test_witness_RetireAndBatchTest :
    let s := withSub { active with rm := 3, dp := 5, pp := 5, fp := 5, ap := 5, kt := 5 } emptyEntries
    let s := { s with pdu := { s.pdu with blocks := [.delivered 0 3 0, .delivered 0 4 0, .filling 0 3 0, .free] } }
    result (.retire 24 0) s = (2, 0) ∧ result (.retire 23 0) s = (1, 0) ∧ result (.retire 0 4) s = (9, 3) ∧
    result (.retire 0 3) s = (0, 4) ∧ (after (.retire 0 3) s).freeBlocks = 2 ∧
    ((after (.retire 0 3) s).sub 0).releasePending = true ∧
    ((after (.retire 0 3) (s.modSub 0 fun b => { b with lastReported := 1 })).sub 0).releasePending = false := by
  decide +kernel

/-! ### The local port -/

theorem test_witness_RegisterWindow :
    let s := { idle with lpc := { idle.lpc with cmd := 6, arg0 := 1, arg1 := 1 } }
    State.reset.lpc.state = .reset ∧ idle.lpc.state ≠ .reset ∧ s.lpc.state = .running ∧ s.lpc.slot = .idle ∧
    (after (.registerWrite false 0 7) s).lpc.cmd = 7 ∧ (after (.registerWrite false 0x14 7) s).lpc.arg3 = 7 ∧
    (after (.registerWrite false 6 7) s) = s ∧ (after (.registerWrite false 15 7) s) = s ∧ after (.registerWrite true 5 7) s = s ∧
    after (.registerWrite false 5 7) s = after (.ringStatus 1 1) s ∧
    (let c : Instr := .join 9 1 0 0x210
     let j := { idle with lpc := { idle.lpc with cmd := 7, arg0 := 9, arg1 := 1, arg3 := 0x210 } }
     c.commandCode = some 7 ∧ c.arguments.isPrefixOf j.argRegisters = true ∧
     after (.registerWrite false 0x15 0) j = after c j ∧ ((after c j).sub 0).state = .joining) ∧
    (let b := { s with lpc := { s.lpc with slot := .starting [] } }
     after (.registerWrite false 5 0) b = b) ∧ idle.stat = 0x1804 ∧ idle.intAsserted = false := by
  decide +kernel

/-- A notice queue of `n` notices. -/
def noticed (n : Nat) (lost : Bool) : State :=
  { idle with lpc := { idle.lpc with
    notices := List.replicate n { kind := .memberLeft, index := 2, reason := 0, value := 9 }, lost := lost,
    dropped := if lost then 5 else 0 } }

theorem test_witness_NoticeQueueOperations :
    (after (.ntc0Read false) (noticed 0 false)).lpc.ld = 0 ∧ (after (.ntc0Read false) (noticed 1 false)).lpc.ld = 0x207 ∧
    (after (.ntc0Read false) (noticed 1 false)).lpc.ntc1 = 9 ∧ (noticed 63 false).lpc.notices.length < 64 ∧
    64 ≤ (noticed 64 true).lpc.notices.length ∧ (noticed 64 true).lpc.lost = true ∧
    (after (.ntc0Read false) (noticed 64 true)).lpc.notices.getLast? =
      some { kind := .noticesLost, index := 0, reason := 0, value := 5 } ∧
    State.reset.lpc.state = .reset ∧ (after (.ntc0Read true) (noticed 1 false)).lpc.notices.length = 1 := by
  decide +kernel

theorem test_witness_LocalMemoryPort :
    idle.lpc.state ≠ .reset ∧ idle.lpc.slot = .idle ∧ MemoryCanonical idle ∧ State.reset.lpc.state = .reset ∧
    (after (.localMemoryAccess true false 0xFFFF 0) (after (.localMemoryAccess false true 0xFFFF 0x11223344) idle)).lpc.ld =
      0x11223344 ∧
    (after (.localMemoryAccess false true 0xFFFF 0x11223344) idle).byteAt 0x3FFFC = 0x44 := by
  unfold MemoryCanonical; decide +kernel

theorem test_witness_WriteDuringStart :
    (starting goodRecord).lpc.state = .config ∧ (starting goodRecord).lpc.slot = .starting [] ∧ (15 : Half).toNat < 16 ∧
    MemoryCanonical (starting goodRecord) := by
  unfold MemoryCanonical; decide +kernel

/-! ### The link, the request tracker and the timers -/

/-- The HELLO of station 3. -/
def hello : Frame := idle.helloFrame

/-- Station 3 wins against a key that equals its own, and loses to a lower one; with nothing to offer it takes no part. -/
theorem test_witness_ControlFrameArbitration :
    let s := { idle with liu := { idle.liu with oneOff := [hello] } }
    idle.offer = none ∧ s.offer = some (.oneOff hello) ∧ s.offerKey (.oneOff hello) = 3 ∧
    (after (.arbitration [2, 9]) s).liu.oneOff = [hello] ∧ (after (.arbitration [3, 9]) s).liu.oneOff = [] ∧
    (after (.arbitration [3, 9]) s).liu.transmitting = some hello := by
  decide +kernel

/-- Rings 1 and 2 to be announced, the pointer at 1: the round goes past it to 2; with one ring it comes back to it. -/
theorem test_witness_AnnounceWinCarriesRecord :
    let one := withRing { opened with announcePending := true }
    let one := { one with liu := { one.liu with announcePtr := 1 } }
    let two := one.modRing 2 fun _ => { opened with announcePending := true }
    firstAfter one.liu.announcePtr (fun q => (one.ring q).announcePending = true) 1 ∧
    firstAfter two.liu.announcePtr (fun q => (two.ring q).announcePending = true) 2 ∧
    one.liu.oneOff = [] ∧ (after (.arbitration [3]) one).liu.announcePtr = 1 ∧
    (after (.arbitration []) two).liu.announcePtr = 2 ∧
    ((after (.arbitration []) two).liu.transmitting.map fun f => f.tail.tail) = some 6 := by
  unfold firstAfter; decide +kernel

theorem test_witness_ReleaseWinReportsRm :
    let s := withSub { active with rm := 3, dp := 3, releasePending := true } emptyEntries
    s.liu.oneOff = [] ∧ (∀ r, (s.ring r).announcePending = false) ∧
    firstAfter s.liu.releasePtr (fun j => (s.sub j).releasePending = true) 0 ∧
    ((after (.arbitration []) s).liu.transmitting.map fun f => f.header.seq) = some 3 := by
  unfold firstAfter; decide +kernel

/-- Subscription 0 with a FETCH at tag 5, QUEUED or SENT. -/
def fetching (b : Sub) (deadline : Timer) (attempts : Nat) : State :=
  let s := withSub b (Vector.ofFn fun k => if k.val < 3 then .asked else .empty)
  let s := s.modTag 5 fun _ =>
    { useCount := 2,
      bound := some { sub := 0, request := .fetch 0 3 5, attempts := attempts, deadline := deadline } }
  { s with rqt := { s.rqt with queue := if deadline.isNone then [5] else [] } }

theorem test_witness_ReplyAndRequestWins :
    let s := { idle with liu := { idle.liu with replies := [headerFrame .refuse idle.header] } }
    let q := fetching asked3 none 1
    s.liu.oneOff = [] ∧ (∀ r, (s.ring r).announcePending = false) ∧ (∀ i, (s.sub i).releasePending = false) ∧
    (after (.arbitration [35]) s).liu.replies = [] ∧ (after (.arbitration [34]) s).liu.replies ≠ [] ∧
    q.liu.oneOff = [] ∧ (∀ r, (q.ring r).announcePending = false) ∧ (∀ i, (q.sub i).releasePending = false) ∧
    q.liu.replies = [] ∧ q.rqt.queue = [5] ∧ (q.tag 5).bound.isSome = true ∧
    ((after (.arbitration [67]) q).tag 5).bound.map (·.deadline) = some (some 100) ∧
    (after (.arbitration [67]) q).rqt.queue = [] ∧ (after (.arbitration [66]) q).rqt.queue = [5] := by
  decide +kernel

/-- Claims of subscriptions 0 and 1, the grant pointer at 0: the round goes to 1. Two retries wait: the older moves. -/
theorem test_witness_RequestTransmitOrder :
    let s := (idle.modSub 0 fun b => { b with claims := [.fetch 0 0 0] }).modSub 1 fun b => { b with claims := [.fetch 8 0 0] }
    let t := { idle with rqt := { idle.rqt with retryLine := [7, 8] } }
    s.rqt.queue.length < 16 ∧ s.rqt.retryLine = [] ∧ firstAfter s.rqt.tagPtr (fun u => (s.tag u).bound = none) 1 ∧
    firstAfter s.rqt.tagGrantPtr (fun j => (s.sub j).claims ≠ []) 1 ∧
    ((after .tagGrant s).tag 1).bound.map (·.sub) = some 1 ∧ (after .tagGrant s).rqt.tagPtr = 1 ∧
    t.rqt.queue.length < 16 ∧ (after .retryLineMove t).rqt.queue = [7] := by
  unfold firstAfter; decide +kernel

/-- The last attempt within the retry limit of 2, with room and without; the attempt beyond it. -/
theorem test_witness_DeadlineOutcomes :
    let full (s : State) : State := { s with rqt := { s.rqt with queue := List.replicate 16 9 } }
    (after (.deadlineExpiry 5) (fetching asked3 (some 0) 2)).rqt.queue = [5] ∧
    (after (.deadlineExpiry 5) (full (fetching asked3 (some 0) 2))).rqt.retryLine = [5] ∧
    ((after (.deadlineExpiry 5) (fetching asked3 (some 0) 3)).sub 0).reason = .silent ∧
    after (.deadlineExpiry 5) (fetching asked3 (some 1) 3) = fetching asked3 (some 1) 3 ∧
    (2 : Nat) ≤ idle.config.retryLimit ∧ idle.config.retryLimit < 3 := by
  decide +kernel

theorem test_witness_DeadlineInLeavingAbandons :
    let s := fetching { asked3 with state := .leaving, poll := none, keepalive := none } (some 0) 1
    (s.sub 0).state = .leaving ∧ (s.sub 0).claims = [] ∧ (∀ u : TagIdx, u ≠ 5 → (s.tag u).bound = none) ∧
    ((after (.deadlineExpiry 5) s).sub 0).state = .ended := by
  decide +kernel

theorem test_witness_KeepaliveAndPoll :
    let s := withSub { active with poll := some 0, keepalive := some 0 } emptyEntries
    let behind := withSub { active with kt := 1, poll := some 0 } emptyEntries
    let early := withSub active emptyEntries
    (s.sub 0).keepalive = some 0 ∧ (early.sub 0).keepalive = some 1000 ∧ after (.keepaliveExpiry 0) early = early ∧
    after (.pollExpiry 0) early = early ∧ ((after (.keepaliveExpiry 0) s).sub 0).releasePending = true ∧
    (s.sub 0).poll = some 0 ∧ (s.sub 0).ap = (s.sub 0).kt ∧ (s.sub 0).claims = [] ∧
    (behind.sub 0).ap ≠ (behind.sub 0).kt ∧ ((after (.pollExpiry 0) behind).sub 0).fetchesOut = 0 ∧
    ((after (.pollExpiry 0) s).tag 1).bound =
      some { sub := 0, request := .fetch 0 0 5, attempts := 1, deadline := none } := by
  decide +kernel

/-- A member whose silence timer has run out. -/
def silent (h : Station) : Member := { member h with silence := some 0 }

theorem test_witness_SilenceExpiryEvicts :
    let s := withRing { opened with roster := [member 4, silent 9] }
    silent 9 ∈ (s.ring 1).roster ∧ (silent 9).silence = some 0 ∧ rosterOrdered (s.ring 1).roster ∧
    (s.ring 1).state = .opened ∧ s.lpc.notices.length < 64 ∧ s.liu.oneOff.length < 8 ∧
    ((after (.silenceExpiry 1 9) s).ring 1).roster = [member 4] ∧
    (after (.silenceExpiry 1 9) s).liu.oneOff.length = 1 ∧ after (.silenceExpiry 1 4) s = s := by
  have h : ∀ r : RingIdx, ((withRing { opened with roster := [member 4, silent 9] }).ring 1).roster = [member 4, silent 9] := by
    decide +kernel
  refine ⟨by decide +kernel, by decide, ?_, by decide +kernel, by decide +kernel, by decide +kernel, by decide +kernel,
    by decide +kernel, by decide +kernel⟩
  rw [h 0]; simp [rosterOrdered, member, silent]

/-- Expiries that a tick queued do nothing after what restarted their timers: a RELEASE, and the win of a PULL's frame. -/
theorem test_restarted_timer_does_not_expire :
    let s := withRing { opened with roster := [silent 9] }
    let restarted := s.restartSilence 1 9
    let b := withSub { active with keepalive := some 0 } emptyEntries
    after (.silenceExpiry 1 9) restarted = restarted ∧
    after (.keepaliveExpiry 0) (b.restartKeepalive 0) = b.restartKeepalive 0 ∧
    ((after (.keepaliveExpiry 0) b).sub 0).releasePending = true := by
  decide +kernel

theorem test_witness_DrainExpiryCloses :
    let s := withRing { opened with state := .withdrawing, roster := [member 4], drain := some 0 }
    after (.drainExpiry 0) s = s ∧ (s.ring 1).drain = some 0 ∧ s.lpc.slot = .idle ∧ ((after (.drainExpiry 1) s).ring 1).state = .closed ∧
    (after (.drainExpiry 1) s).lpc.notices = [{ kind := .ringClosed, index := 1, reason := 1, value := 1 }] := by
  decide +kernel

/-- A ring in order, with members at 2 and 3. -/
theorem test_witness_RingPointsRecomputed :
    let g : Ring := { opened with roster := [member 4, { member 9 with mark := 3 }], commit := 3 }
    (g.tail - g.reclaim).toNat ≤ 512 ∧ (g.commit - g.reclaim).toNat ≤ (g.tail - g.reclaim).toNat ∧
    (∀ m ∈ g.roster, (m.mark - g.reclaim).toNat ≤ (g.commit - g.reclaim).toNat) ∧ g.recompute.reclaim = 2 ∧
    ({ g with roster := [] } : Ring).recompute.commit = 6 ∧
    ({ g with roster := [], retain := true } : Ring).recompute.reclaim = 0 := by
  decide +kernel

/-! ### Receiving -/

/-- A header from station 9, incarnation 8, about ring 1 in epoch 2, to station 3. -/
def header : Header :=
  { source := 9, dest := 3, broadcast := false, incarnation := 8, epoch := 2, ring := 1, tag := 5, useCount := 2, seq := 0,
    count := 0, length := 0, reason := 0, newest := false }

/-- The tail block of an OPEN ring with tail 3 in revision 0. -/
def tail : TailBlock := { tail := 3, revision := 0, state := 1, slotCode := 0 }

/-- An intact arrival of a kind, its key that of station 9. -/
def arrival (k : FrameKind) (h : Header) (t : TailBlock) (body : List Byte) : Arrival :=
  { key := arbitrationKey k 9, header := { h with broadcast := kindBroadcast k }, tail := t, body := body, intact := true }

/-- An ANNOUNCE of station 9. -/
def announce (h : Header) (t : TailBlock) : Arrival := arrival .announce h t []

/-- Each way the filter lets a frame in or keeps it out. -/
theorem test_witness_ReceiveFilterDecides :
    let s := withSub active emptyEntries
    s.accepts .announce (announce header tail) = true ∧ s.accepts .hello (arrival .hello header zeroTail []) = true ∧
    s.accepts .leave (arrival .leave header zeroTail []) = true ∧
    s.accepts .leave (arrival .leave { header with dest := 4 } zeroTail []) = false ∧
    s.accepts .leave { arrival .leave header zeroTail [] with intact := false } = false ∧
    s.accepts .leave { arrival .leave header zeroTail [] with key := 10 } = false ∧
    inConfig.accepts .leave (arrival .leave header zeroTail []) = false ∧
    idle.accepts .announce (announce header tail) = false ∧
    idle.accepts .leave (arrival .leave { header with source := 3 } zeroTail []) = false := by
  decide +kernel

/-- An announcement shows OPEN or WITHDRAWING; FETCH counts stop at 16, chunks at 15, reasons at 6. -/
theorem test_filter_limits :
    kindFormed .announce (announce header { tail with state := 2 }) = true ∧
    kindFormed .announce (announce header { tail with state := 3 }) = false ∧
    kindFormed .announce (announce header { tail with state := 0 }) = false ∧
    kindFormed .fetch (arrival .fetch { header with count := 16 } zeroTail []) = true ∧
    kindFormed .fetch (arrival .fetch { header with count := 17 } zeroTail []) = false ∧
    kindFormed .pull (arrival .pull { header with count := 15, length := 256 } zeroTail []) = true ∧
    kindFormed .pull (arrival .pull { header with count := 15, length := 257 } zeroTail []) = false ∧
    kindFormed .refuse (arrival .refuse { header with reason := 7 } zeroTail []) = false := by
  decide +kernel

theorem test_witness_HelloOutcomes :
    let s := withSub active emptyEntries
    let a := arrival .hello header zeroTail []
    s.accepts .hello a = true ∧ s.lpc.notices.length < 64 ∧ (s.sub 0).producer = a.header.source ∧
    ((after (.helloFrame a) s).sub 0).reason = .restarted ∧
    (after (.helloFrame a) s).lpc.notices.map (·.kind) = [.peerRestarted, .subEnded] ∧
    (let t := withRing { opened with roster := [member 4, member 9] }
     t.accepts .hello a = true ∧ ((after (.helloRosterRemoval a) t).ring 1).roster = [member 4]) := by
  decide +kernel

/-- The record that follows a header is one only. -/
theorem test_witness_follows : (withSub active emptyEntries).follows 0 header := by
  unfold State.follows; decide +kernel

/-- The incarnation, then epochs just newer, farthest newer and farthest older, then the frames that pass. -/
theorem test_witness_SubscriptionFrameChecks :
    let s := withSub active emptyEntries
    let joining := withSub { active with state := .joining, welcomed := false } emptyEntries
    let evict (h : Header) : Arrival := arrival .evict h zeroTail []
    s.accepts .evict (evict header) = true ∧ (s.sub 0).state = .active ∧
    ((after (.evictFrame (evict { header with incarnation := 7 })) s).sub 0).reason = .restarted ∧
    ((after (.evictFrame (evict { header with epoch := 3 })) s).sub 0).reason = .epoch ∧
    ((after (.evictFrame (evict { header with epoch := 0x8001 })) s).sub 0).reason = .epoch ∧
    after (.evictFrame (evict { header with epoch := 0x8003 })) s = s ∧
    ((after (.evictFrame (evict header)) s).sub 0).reason = .evicted ∧
    ((after (.announceFrame (announce { header with epoch := 3 } tail)) s).sub 0).reason = .epoch ∧
    (joining.sub 0).state = .joining ∧ after (.evictFrame (evict header)) joining = joining := by
  decide +kernel

/-- The recorded revision, a newer one with a lower tail, an older one; and a ring that withdraws. -/
theorem test_witness_AnnounceOutcomes :
    let s := withSub { active with revision := 4, kt := 2, ap := 2, fetchesOut := 1 } emptyEntries
    let kt (t : TailBlock) : Seq := ((after (.announceFrame (announce header t)) s).sub 0).kt
    s.accepts .announce (announce header { tail with revision := 4 }) = true ∧ (s.sub 0).state = .active ∧
    s.lpc.notices.length < 63 ∧ kt { tail with revision := 4 } = 3 ∧ kt { tail with revision := 4, tail := 1 } = 2 ∧
    kt { tail with revision := 5, tail := 1 } = 1 ∧ kt { tail with revision := 0x8003, tail := 1 } = 1 ∧
    kt { tail with revision := 3, tail := 1 } = 2 ∧ kt { tail with revision := 0x8005, tail := 1 } = 2 ∧
    ((after (.announceFrame (announce header { tail with state := 2 })) s).sub 0).state = .finishing ∧
    ((after (.announceFrame (announce header { tail with state := 2, tail := 0 }))
      (withSub active emptyEntries)).sub 0).state = .ended := by
  decide +kernel

theorem test_witness_RequestEntersServeQueue :
    let a := arrival .fetch { header with seq := 7, count := 16 } zeroTail []
    let e : ServeEntry :=
      { source := 9, incarnation := 8, ring := 1, epoch := 2, tag := 5, useCount := 2, body := .fetch 7 16 }
    let full := { idle with pub := { idle.pub with serveQueue := List.replicate 16 e } }
    idle.accepts (requestFrameKind .fetch) a = true ∧ idle.pub.serveQueue.length < 16 ∧
    (after (.requestFrame .fetch a) idle).pub.serveQueue = [e] ∧
    full.accepts (requestFrameKind .fetch) a = true ∧ 16 ≤ full.pub.serveQueue.length ∧
    (after (.requestFrame .fetch a) full).pub.serveQueue.length = 16 := by
  decide +kernel

/-- A LEAVE of another epoch, of epoch 0, and the last one of a WITHDRAWING ring. -/
theorem test_witness_LeaveFrameOutcomes :
    let two := withRing { opened with roster := [member 4, member 9] }
    let last := withRing { opened with state := .withdrawing, roster := [member 9], drain := some 3 }
    let leave (h : Header) : Arrival := arrival .leave h zeroTail []
    two.accepts .leave (leave header) = true ∧ member 9 ∈ (two.ring 1).roster ∧ (member 9).station = header.source ∧
    (member 9).incarnation = header.incarnation ∧
    after (.leaveFrame (leave { header with epoch := 3 })) two = two ∧
    ((after (.leaveFrame (leave header)) two).ring 1).roster = [member 4] ∧
    ((after (.leaveFrame (leave { header with epoch := 0 })) two).ring 1).roster = [member 4] ∧
    last.lpc.notices.length < 63 ∧ (last.ring 1).roster = [member 9] ∧
    ((after (.leaveFrame (leave header)) last).ring 1).state = .closed ∧
    (after (.leaveFrame (leave header)) last).lpc.notices.map (·.kind) = [.memberLeft, .ringClosed] := by
  decide +kernel

theorem test_witness_rosterOrdered : rosterOrdered [member 4, member 9] := by simp [rosterOrdered, member]

/-- Marks at the ends of [release mark, commit point] and one beyond; a stranger; another epoch. -/
theorem test_witness_ReleaseFrameOutcomes :
    let two := withRing { opened with roster := [member 9, { member 11 with mark := 5 }] }
    let release (h : Header) : Arrival := arrival .release h zeroTail []
    let mark (q : Seq) : Option Seq :=
      (((after (.releaseFrame (release { header with seq := q })) two).ring 1).roster.head?).map (·.mark)
    two.accepts .release (release header) = true ∧ mark 2 = some 2 ∧ mark 4 = some 4 ∧ mark 5 = some 2 ∧ mark 1 = some 2 ∧
    ((after (.releaseFrame (release { header with seq := 4 })) two).ring 1).reclaim = 4 ∧
    after (.releaseFrame (release { header with epoch := 3 })) two = two ∧
    (after (.releaseFrame (release header)) (withRing { opened with roster := [member 4] })).liu.oneOff.length = 1 := by
  decide +kernel

/-! ### Replies -/

/-- A reply that answers tag 5 of `fetching`, and three that do not. -/
theorem test_witness_UnmatchedReplyDiscarded :
    let s := fetching asked3 (some 9) 1
    let refuse (h : Header) : Arrival := arrival .refuse { h with reason := 3 } zeroTail []
    Instr.arrival (.refuseFrame (refuse header)) = some (.refuse, refuse header) ∧
    (s.matchReply .refuse header).isSome = true ∧
    s.matchReply .refuse { header with useCount := 3 } = none ∧ s.matchReply .refuse { header with source := 8 } = none ∧
    s.matchReply .welcome header = none ∧ (fetching asked3 none 1).matchReply .refuse header = none ∧
    ((fetching asked3 none 2).matchReply .refuse header).isSome = true ∧
    after (.refuseFrame (refuse { header with useCount := 3 })) s = s ∧
    ((after (.refuseFrame (refuse header)) s).sub 0).reason = .evicted := by
  decide +kernel

/-- The tests of R118, as the statements write them. -/
theorem test_witness_answers : ∃ b, (fetching asked3 (some 9) 1).answers .refuse header 5 b :=
  ⟨{ sub := 0, request := .fetch 0 3 5, attempts := 1, deadline := some 9 }, by unfold State.answers; decide +kernel⟩

/-- Subscription 0 in JOINING, its JOIN SENT at tag 5, line 0 reserved for it. -/
def joining : State :=
  let s := (idle.modSub 0 fun _ => { Sub.fresh 0 with state := .joining, producer := 9, ring := 1, depth := 16, window := 2 })
  let s := s.setLine 0 (.reserved 0)
  s.modTag 5 fun _ =>
    { useCount := 2, bound := some { sub := 0, request := .join false, attempts := 1, deadline := some 9 } }

theorem test_witness_WelcomeStartsSubscription :
    let w (t : TailBlock) : Arrival := arrival .welcome { header with seq := 7 } t []
    let u := after (.welcomeFrame (w { tail with tail := 12 })) joining
    joining.accepts .welcome (w tail) = true ∧ (joining.matchReply .welcome header).isSome = true ∧
    (joining.sub 0).state = .joining ∧ (u.sub 0).state = .active ∧ (u.sub 0).ap = 12 ∧
    u.lpc.notices = [{ kind := .subActive, index := 0, reason := 0, value := 7 }] ∧ u.holdsGroup 0 0 = true ∧ u.holdsGroup 0 8 = true ∧
    ((after (.welcomeFrame (w { tail with tail := 8, state := 2 })) joining).sub 0).state = .finishing ∧
    ((after (.welcomeFrame (w { tail with tail := 7, state := 2 })) joining).sub 0).state = .ended := by
  decide +kernel

/-- REFUSE to a JOIN by each of its reasons; to a FETCH by each check. -/
theorem test_witness_RefusalOutcomes :
    let r (h : Header) (why : BitVec 4) : Arrival := arrival .refuse { h with reason := why } zeroTail []
    let j (why : BitVec 4) : EndReason := ((after (.refuseFrame (r header why)) joining).sub 0).reason
    let f (h : Header) (why : BitVec 4) : EndReason :=
      ((after (.refuseFrame (r h why)) (fetching asked3 (some 9) 1)).sub 0).reason
    joining.accepts .refuse (r header 1) = true ∧ (joining.matchReply .refuse header).isSome = true ∧
    j 1 = .refusedClosed ∧ j 2 = .refusedFull ∧ j 3 = .fault ∧ j 6 = .fault ∧
    f { header with incarnation := 9 } 3 = .restarted ∧ f { header with epoch := 3 } 3 = .epoch ∧
    f { header with epoch := 0x8001 } 3 = .epoch ∧ f { header with epoch := 0x8003 } 3 = .fault ∧
    f header 1 = .closed ∧ f header 3 = .evicted ∧ f header 4 = .fault ∧ f header 6 = .fault := by
  decide +kernel

/-- The JOIN of a subscription in LEAVING is answered by a WELCOME, and by a REFUSE: the leave completes. -/
theorem test_witness_JoinAnsweredInLeaving :
    let s := joining.modSub 0 fun b => { b with state := .leaving }
    let w : Arrival := arrival .welcome header tail []
    let r : Arrival := arrival .refuse { header with reason := 1 } zeroTail []
    s.accepts .welcome w = true ∧ (s.matchReply .welcome header).isSome = true ∧ (s.sub 0).state = .leaving ∧
    (s.sub 0).claims = [] ∧ (∀ u : TagIdx, u ≠ 5 → (s.tag u).bound = none) ∧
    ((after (.welcomeFrame w) s).sub 0).reason = .left ∧
    (after (.welcomeFrame w) s).liu.oneOff.map (fun f => f.header.epoch) = [2] ∧
    s.accepts .refuse r = true ∧ ((after (.refuseFrame r) s).sub 0).reason = .left ∧
    (after (.refuseFrame r) s).liu.oneOff.map (fun f => f.header.epoch) = [0] := by
  decide +kernel

/-- A LISTING of three descriptors from 0. -/
def listing : Arrival :=
  arrival .listing { header with count := 3 } tail
    ((List.range 3).flatMap fun k => (Image.mk (BitVec.ofNat 32 k) 100 false false 0).bytes)

theorem test_witness_ListingOutcomes :
    let s := fetching asked3 (some 9) 1
    let stale := fetching { asked3 with generation := 6 } (some 9) 1
    s.accepts .listing listing = true ∧ (s.matchReply .listing listing.header).isSome = true ∧
    (s.sub 0).ap = (s.sub 0).fp + BitVec.ofNat 32 3 ∧ (∀ k, k < 3 → s.entryAt 0 ((s.sub 0).fp + BitVec.ofNat 32 k) = .asked) ∧
    ((after (.listingFrame listing) s).sub 0).fp = 3 ∧
    (after (.listingFrame listing) s).entryAt 0 2 = .held { seq := 2, length := 100, fence := false, last := false, stamp := 0 } ∧
    (stale.sub 0).generation ≠ 5 ∧ ((after (.listingFrame listing) stale).sub 0).fp = 0 ∧
    ((after (.listingFrame listing) stale).sub 0).fetchesOut = 0 := by
  decide +kernel

theorem test_witness_listingFor : (fetching asked3 (some 9) 1).listingFor listing 5 0 3 := by
  refine ⟨by decide +kernel, ⟨some 9, 1, by unfold State.answers; decide +kernel⟩, ?_⟩
  refine ⟨by decide +kernel, by decide +kernel, by decide +kernel, by decide +kernel, by decide, by decide +kernel,
    by decide +kernel, by decide +kernel, by decide +kernel⟩

/-- A LISTING of one descriptor where three were asked, with a tail. -/
def shortListing (t : TailBlock) : Arrival :=
  arrival .listing { header with count := 1 } t (Image.mk 0 100 false false 0).bytes

/-- A short LISTING of a retraction; a whole one with a newer revision and a tail below AP; one with an older revision; one
that shows WITHDRAWING. -/
theorem test_listing_tails :
    let s := fetching asked3 (some 9) 1
    let short := after (.listingFrame (shortListing { tail with tail := 1, revision := 1 })) s
    let whole (t : TailBlock) : State := after (.listingFrame { listing with tail := t }) s
    seqBefore 1 ((s.sub 0).fp + BitVec.ofNat 32 1) = false ∧ (s.sub 0).revision = 0 ∧
    (short.sub 0).fp = 1 ∧ (short.sub 0).ap = 1 ∧ (short.sub 0).kt = 1 ∧ short.entryAt 0 1 = .empty ∧
    ((whole { tail with tail := 2, revision := 1 }).sub 0).fp = 2 ∧
    ((whole { tail with tail := 2, revision := 1 }).sub 0).kt = 2 ∧
    ((whole { tail with tail := 4, revision := 0xFFFF }).sub 0).kt = 3 ∧
    ((whole { tail with state := 2 }).sub 0).state = .finishing ∧
    (whole { tail with state := 2 }).lpc.notices = [{ kind := .subFinishing, index := 0, reason := 0, value := 3 }] := by
  decide +kernel

/-- Old LISTINGs of a flush: the last but one, and the last, which completes the flush. -/
theorem test_stale_listing_ends_its_fetch :
    let s (n : Nat) : State := fetching { active with generation := 6, kt := 3, fetchesOut := n, flushPending := true,
                                                      flushOwed := true } (some 9) 1
    let t (n : Nat) : State := after (.listingFrame listing) (s n)
    ((t 2).sub 0).flushPending = true ∧ ((t 2).sub 0).fetchesOut = 1 ∧ (t 2).lpc.notices = [] ∧
    ((t 1).sub 0).flushPending = false ∧
    (t 1).lpc.notices = [{ kind := .flushDone, index := 0, reason := 0, value := 6 }] := by
  decide +kernel

/-- The image of descriptor 0, of 300 bytes: two chunks. -/
def image : Image := { seq := 0, length := 300, fence := false, last := true, stamp := 77 }

/-- A subscription that pulls descriptor 0 into blocks 0 and 1, chunk 1 outstanding at tag 5. -/
def pulling : State :=
  let p : PullRecord := { image := image, blocks := [0, 1], issued := 2, arrived := [0] }
  let s := withSub { active with pp := 1, fp := 1, ap := 1, kt := 1, pullsOut := 1, pulls := [p] }
    (Vector.ofFn fun k => if k.val = 0 then .pulling image else .empty)
  let s := { s with pdu := { s.pdu with blocks := [.filling 0 0 0, .filling 0 0 1, .free, .free] } }
  s.modTag 5 fun _ =>
    { useCount := 2, bound := some { sub := 0, request := .pull 0 1 44 1, attempts := 1, deadline := some 9 } }

/-- A PAYLOAD of chunk 1. -/
def payload (n : Nat) : Arrival :=
  arrival .payload { header with count := 1, length := BitVec.ofNat 9 n } zeroTail (List.replicate n 0xAB)

/-- The payload of the asked length completes the descriptor, which is delivered; one of another length is a fault. -/
theorem test_witness_PayloadOutcomes :
    let t := after (.payloadFrame (payload 44)) pulling
    pulling.accepts .payload (payload 44) = true ∧ pulling.accepts .payload (payload 43) = true ∧
    (pulling.matchReply .payload (payload 44).header).isSome = true ∧ ((pulling.sub 0).pullRecord 0).isSome = true ∧
    MemoryCanonical pulling ∧ (payload 44).body.length = 44 ∧
    t.byteAt 0x10100 = 0xAB ∧ t.byteAt 0x1012B = 0xAB ∧ t.byteAt 0x1012C = 0 ∧ (t.sub 0).dp = 1 ∧ t.pdu.fill = 1 ∧
    t.halfAt 0x100C = 300 ∧
    ((after (.payloadFrame (payload 43)) pulling).sub 0).reason = .fault := by
  unfold MemoryCanonical; decide +kernel

/-- In LEAVING a PAYLOAD of a wrong length, and a deadline, abandon the PULL: its blocks are FREE, and the leave completes. A
PAYLOAD for a descriptor that is gone ends its PULL alone. -/
theorem test_witness_PullAbandoned :
    let s := pulling.modSub 0 fun b => { b with state := .leaving, poll := none, keepalive := none }
    let late := s.modTag 5 fun g => { g with bound := g.bound.map fun b => { b with deadline := some 0 } }
    let gone := pulling.modSub 0 fun b => { b with pulls := [], pp := 0, fp := 0, ap := 0 }
    (s.sub 0).state = .leaving ∧ s.accepts .payload (payload 43) = true ∧
    (after (.payloadFrame (payload 43)) s).freeBlocks = 4 ∧ ((after (.payloadFrame (payload 43)) s).sub 0).reason = .left ∧
    (after (.deadlineExpiry 5) late).freeBlocks = 4 ∧ ((after (.deadlineExpiry 5) late).sub 0).pp = 0 ∧
    ((gone.sub 0).pullRecord 0).isNone = true ∧ ((after (.payloadFrame (payload 44)) gone).sub 0).pullsOut = 0 ∧
    (after (.payloadFrame (payload 44)) gone).byteAt 0x10100 = 0 := by
  decide +kernel

/-! ### The serve engine -/

/-- Station 9 asks ring 1. -/
def asks (b : RequestBody) : ServeEntry :=
  { source := 9, incarnation := 8, ring := 1, epoch := 2, tag := 5, useCount := 2, body := b }

/-- Ring 1 as given, with one request in the Serve Queue. -/
def serving (g : Ring) (e : ServeEntry) : State :=
  let s := withRing g
  { s with pub := { s.pub with serveQueue := [e] } }

/-- The kind and reason of the reply placed. -/
def answer (s : State) : Option (FrameKind × BitVec 4) := s.liu.replies.head?.map fun f => (f.kind, f.header.reason)

/-- Six members, none of them station 9. -/
def sixMembers : List Member := [member 10, member 11, member 12, member 13, member 14, member 15]

/-- CLOSED, WITHDRAWING and full rings refuse; a ring with five members admits; a member joins again. -/
theorem test_witness_JoinServed :
    let j (g : Ring) : Option (FrameKind × BitVec 4) := answer (after .serveJoin (serving g (asks (.join true))))
    let fifth := after .serveJoin (serving { opened with roster := sixMembers.drop 1 } (asks (.join true)))
    (serving opened (asks (.join true))).pub.serveQueue = [asks (.join true)] ∧
    (serving opened (asks (.join true))).liu.replies.length < 8 ∧
    j { opened with state := .closed } = some (.refuse, 1) ∧ j { opened with state := .withdrawing } = some (.refuse, 1) ∧
    j { opened with roster := sixMembers } = some (.refuse, 2) ∧ answer fifth = some (.welcome, 0) ∧
    ((fifth.ring 1).roster.map (·.station)) = [9, 11, 12, 13, 14, 15] ∧
    (fifth.ring 1).roster.head?.map (·.mark) = some 6 ∧
    j { opened with state := .withdrawing, roster := [member 9] } = some (.welcome, 0) := by
  decide +kernel

theorem test_witness_strangerTo : (serving { opened with roster := sixMembers } (asks (.join true))).strangerTo (asks (.join true)) := by
  unfold State.strangerTo; decide +kernel

theorem test_witness_memberOf : ∃ m, (serving { opened with roster := [member 9] } (asks (.fetch 0 3))).memberOf (asks (.fetch 0 3)) m := by
  refine ⟨member 9, ?_, by decide +kernel, by decide +kernel, by decide +kernel⟩
  have h : ((serving { opened with roster := [member 9] } (asks (.fetch 0 3))).ring (asks (.fetch 0 3)).ring).roster = [member 9] := by
    decide +kernel
  rw [h]; simp [rosterOrdered]

theorem test_witness_RequestGate :
    let f (g : Ring) (e : ServeEntry) : Option (FrameKind × BitVec 4) := answer (after .serveFetch (serving g e))
    f { opened with state := .closed } (asks (.fetch 0 3)) = some (.refuse, 1) ∧
    f opened { asks (.fetch 0 3) with epoch := 3 } = some (.refuse, 4) ∧ f opened (asks (.fetch 0 3)) = some (.refuse, 3) ∧
    f { opened with roster := [member 9] } { asks (.fetch 2 3) with epoch := 1 } = some (.refuse, 4) ∧
    answer (after .servePull (serving opened (asks (.pull 0 0 4)))) = some (.refuse, 3) := by
  decide +kernel

/-- Below the reclaim point, at it, at the tail's last descriptor, at the tail. -/
theorem test_witness_FetchServed :
    let g : Ring := { opened with reclaim := 2, roster := [member 9] }
    let f (q : Seq) (n : Nat) : State := after .serveFetch (serving g (asks (.fetch q n)))
    let counts (q : Seq) (n : Nat) : Option Nat := (f q n).liu.replies.head?.map fun x => x.header.count.toNat
    answer (f 1 3) = some (.refuse, 5) ∧ counts 2 3 = some 3 ∧ counts 2 16 = some 4 ∧ counts 5 16 = some 1 ∧
    counts 6 16 = some 0 ∧ ((f 5 1).ring 1).commit = 6 ∧ ((f 2 1).ring 1).commit = 4 := by
  decide +kernel

/-- A PULL of descriptor 2 of 100 bytes at 20000h: whole, beyond its length, below the reclaim point, at the commit point. -/
theorem test_witness_PullServed :
    let g : Ring := { opened with reclaim := 2, roster := [member 9] }
    let f (q : Seq) (n : Nat) : Option (FrameKind × BitVec 4) :=
      let s := serving g (asks (.pull q 0 n))
      answer (after .servePull ((s.putBytes 0x4020 (wordBytes 0x20000)).putBytes 0x4024 (wordBytes 100)))
    f 2 100 = some (.payload, 0) ∧ f 2 101 = some (.refuse, 6) ∧ f 1 1 = some (.refuse, 6) ∧ f 4 1 = some (.refuse, 6) := by
  decide +kernel

/-! ### The pull engine, the rounds and delivery -/

/-- A subscription with descriptor 0 HELD. -/
def holding (b : Sub) (blocks : List Block) : State :=
  let s := withSub { b with fp := 1, ap := 1, kt := 1 } (Vector.ofFn fun k => if k.val = 0 then .held image else .empty)
  { s with pdu := { s.pdu with blocks := blocks } }

/-- Two FREE blocks, the lowest FREE ones first; and one. -/
def twoFree : List Block := [.delivered 3 0 0, .free, .delivered 3 0 1, .free]
def oneFree : List Block := [.delivered 3 0 0, .free, .delivered 3 0 1, .delivered 3 0 2]

theorem test_witness_PullStartTurn :
    let s := holding active twoFree
    let dry := withSub { active with ap := 1, kt := 1 } emptyEntries
    readyForTurn (s.sub 0) ∧ firstAfter s.pdu.pullGrantPtr (fun j => readyForTurn (s.sub j)) 0 ∧
    (s.sub 0).issue = none ∧ s.entryAt 0 (s.sub 0).pp = .held image ∧ image.seq = (s.sub 0).pp ∧
    seqBefore (s.sub 0).pp (s.sub 0).fp = true ∧ (∀ j, s.deliverable j = false) ∧
    ((after .pullStart s).sub 0).issue = some (0, 0) ∧ ((after .pullStart s).sub 0).pulls.map (·.blocks) = [[1, 3]] ∧
    ((after .pullStart (holding active oneFree)).sub 0).blockWait = some (0, 2) ∧
    firstAfter dry.pdu.pullGrantPtr (fun j => readyForTurn (dry.sub j)) 0 ∧ (dry.sub 0).fp = (dry.sub 0).pp ∧
    ((after .pullStart dry).sub 0).pullWait = true := by
  dsimp only [firstAfter, readyForTurn]; and_intros <;> decide +kernel

/-- The first chunk of descriptor 0, and its last. -/
theorem test_witness_ChunkIssueClaimsPull :
    let record (n : Nat) : PullRecord := { image := image, blocks := [1, 3], issued := n, arrived := [] }
    let s (n : Nat) : State := withSub { active with pp := 1, fp := 1, ap := 1, kt := 1, pulls := [record n], issue := some (0, n) }
      (Vector.ofFn fun k => if k.val = 0 then .pulling image else .empty)
    firstAfter (s 0).pdu.pullGrantPtr (fun j => readyForTurn ((s 0).sub j)) 0 ∧
    ((s 0).sub 0).pulls = [] ++ record 0 :: [] ∧ ((s 0).sub 0).claims = [] ∧ 1 < chunkCount image.length.toNat ∧
    ((after .chunkIssue (s 0)).sub 0).issue = some (0, 1) ∧ ((after .chunkIssue (s 1)).sub 0).issue = none ∧
    ((after .chunkIssue (s 1)).tag 1).bound =
      some { sub := 0, request := .pull 0 1 44 3, attempts := 1, deadline := none } := by
  dsimp only [firstAfter, readyForTurn]; and_intros <;> decide +kernel

/-- A need of two blocks met with two FREE ones, and not with one. -/
theorem test_witness_BlockGrantRound :
    let s := holding { active with blockWait := some (0, 2) } twoFree
    let t := holding { active with blockWait := some (0, 2) } oneFree
    (s.sub 0).blockWait = some (image.seq, 2) ∧ (∀ j : SubIdx, j ≠ 0 → (s.sub j).blockWait = none) ∧
    2 = chunkCount image.length.toNat ∧ 2 ≤ s.freeBlocks ∧ s.entryAt 0 image.seq = .held image ∧
    (∀ j, s.deliverable j = false) ∧ ((after .blockGrantRound s).sub 0).pp = 1 ∧
    (∀ j : SubIdx, ∀ w ∈ (t.sub j).blockWait, t.freeBlocks < w.2) ∧ after .blockGrantRound t = t := by
  decide +kernel

/-- A subscription in line wait at 16, with descriptors up to 20 to ask for, whose line stands for another group. -/
def waiting : State :=
  let s := withSub { active with rm := 16, dp := 16, pp := 16, fp := 16, ap := 16, kt := 20, lineWait := true, fetchesOut := 1 }
    emptyEntries
  s.setLine 0 (.assigned 0 8 emptyEntries)

theorem test_witness_LineWaitRound :
    let v := waiting.modSub 0 fun b => { b with lineWait := false }
    (waiting.sub 0).lineWait = true ∧ (∀ j : SubIdx, j ≠ 0 → (waiting.sub j).lineWait = false) ∧ 0 < waiting.spareLines ∧
    (waiting.sub 0).fetchesOut + 1 = waiting.config.fetchesPerSub ∧ v.enough 0 (v.cover 0).size = true ∧
    0 < (v.cover 0).spare ∧ (v.cover 0).borrowed = none ∧
    ((after .lineWaitRound waiting).sub 0).ap = 20 ∧ (after .lineWaitRound waiting).dpc.lines.get 1 ≠ .free ∧
    idle.spareLines = 24 ∧ after .lineWaitRound idle = idle := by
  decide +kernel

/-- A COMPLETE descriptor at DP, and the record of its delivery at the last place of the queue. -/
theorem test_witness_DeliveryOutcomes :
    let p : PullRecord := { image := image, blocks := [0, 1], issued := 2, arrived := [0, 1] }
    let s := withSub { active with pp := 1, fp := 1, ap := 1, kt := 1, pulls := [p] }
      (Vector.ofFn fun k => if k.val = 0 then .complete image else .empty)
    let s := { s with pdu := { s.pdu with writeIndex := 3, readIndex := 0, fill := 3 } }
    let t := after .delivery s
    s.pdu.fill < s.pdu.capacity ∧ firstAfter s.pdu.deliveryPtr (fun j => s.deliverable j = true) 0 ∧
    (s.sub 0).pullRecord (s.sub 0).dp = some p ∧ MemoryCanonical s ∧ image.length.toNat ≤ 4096 ∧
    (t.sub 0).dp = 1 ∧ t.pdu.fill = 4 ∧ t.pdu.writeIndex = 0 ∧ t.byteAt 0x1091 = 9 ∧ t.byteAt 0x1093 = 2 ∧
    t.halfAt 0x10A2 = 1 := by
  unfold firstAfter MemoryCanonical; decide +kernel

/-! ### Steps, invariants and the medium -/

/-- The state after a step. -/
def stepped (s : State) : State :=
  match step s with
  | .next t => t
  | _ => s

theorem test_step_runs_the_front :
    let t := stepped { delivered with pending := [.accept 1, .start] }
    t.pending = [.start] ∧ t.pdu.fill = 2 ∧ (stepped t).pending = [] ∧ (stepped t).lpc.res = 1 := by
  decide +kernel

/-- With no command waiting a step is one time unit: the timers count, and an expiry that falls due joins the queue. -/
theorem test_step_ticks_when_idle :
    let s := withSub { active with poll := some 1 } emptyEntries
    stepped s = { s.modSub 0 (fun b => { b with poll := some 0, keepalive := some 999 }) with pending := [.pollExpiry 0] } := by
  decide +kernel

/-- A table word spells no command, since no row of the table has bits. -/
theorem test_no_word_spells_a_command :
    decodeTableWord 32 7 = none ∧ State.reset.withFetchWord 32 7 = State.reset := by
  decide +kernel

/-- States that run satisfy the invariants whose truth a computation shows. -/
theorem test_witness_invariants :
    MemoryCanonical pulling ∧ QueuesBounded pulling ∧ DeliveryQueueCoherent pulling ∧ PoolSized pulling ∧
    UnretiredBounded pulling := by
  unfold MemoryCanonical QueuesBounded DeliveryQueueCoherent PoolSized UnretiredBounded; decide +kernel

theorem test_witness_NoticesCoherent : NoticesCoherent (noticed 64 true) := by unfold NoticesCoherent; decide +kernel

theorem test_witness_RingsCoherent : RingsCoherent (withRing opened) := by
  refine ⟨fun r => ⟨?_, ?_, ?_, ?_⟩, fun run h => ?_⟩
  · revert r; decide +kernel
  · have h : ∀ r : RingIdx, ((withRing opened).ring r).roster = [] := by decide +kernel
    rw [h r]; trivial
  · revert r; decide +kernel
  · revert r; decide +kernel
  · have : (withRing opened).lpc.slot = .idle := by decide +kernel
    rw [this] at h; cases h

theorem test_witness_RingPointsOrdered : RingPointsOrdered (withRing opened) := by
  have h : ∀ r : RingIdx, ((withRing opened).ring r).roster = [] := by decide +kernel
  refine ⟨fun r hr => ⟨?_, ?_, ?_, fun m hm => ?_⟩, fun run h' => ?_⟩
  · revert r; decide +kernel
  · revert r; decide +kernel
  · revert r; decide +kernel
  · rw [h r] at hm; cases hm
  · have : (withRing opened).lpc.slot = .idle := by decide +kernel
    rw [this] at h'; cases h'

theorem test_witness_RequestsOwned : RequestsOwned idle := by
  have h : ∀ t : TagIdx, (idle.tag t).bound = none := by decide +kernel
  refine ⟨fun t b e => ?_, by decide +kernel⟩
  rw [h t] at e; cases e

theorem test_witness_QuietUntilStart : QuietUntilStart inConfig ∧ QuietUntilStart idle := by
  constructor
  · refine ⟨fun _ => ⟨by decide +kernel, by decide +kernel, by decide +kernel, by decide +kernel, by decide +kernel,
      by decide +kernel, by decide +kernel, by decide +kernel, by decide +kernel, fun run h => ?_⟩, by decide +kernel⟩
    have : inConfig.lpc.slot = .idle := by decide +kernel
    rw [this] at h; cases h
  · exact ⟨fun h => absurd (by decide +kernel) h, by decide +kernel⟩

/-- The check value of the bytes 31h to 39h, as CRC-32C is published. -/
theorem test_frame_check : frameCheck [0x31, 0x32, 0x33, 0x34, 0x35, 0x36, 0x37, 0x38, 0x39] = 0xE3069283 := by
  decide +kernel

/-- The HELLO of station 3 on the medium, its header written out from Table 10-2: broadcast, source 3, kind 1. -/
theorem test_hello_bytes : (frameBytes hello).take 17 = [3, 0x31, 0x40, 7, 0, 0, 0, 0, 0, 0, 0, 0, 0, 0, 0, 0, 0] := by
  decide +kernel

end Sys2Proof.Tests
end

section
/-! PROOFS. The command slot of a station that is RUNNING with BUSY at 0, the operand checks that the ring commands share, and
what OPEN (R7, R8) and RETRACT (R14, R15) do. -/
namespace Sys2Proof.Machine

/-! ### Issuing a command (R181) -/

theorem args2_ready {s : State} (h : s.ready) (code : Byte) (w0 w1 : Word) : (s.args2 code w0 w1).ready := h

theorem args4_ready {s : State} (h : s.ready) (code : Byte) (w0 w1 w2 w3 : Word) : (s.args4 code w0 w1 w2 w3).ready := h

@[simp] theorem args2_ring (s : State) (code : Byte) (w0 w1 : Word) (r : RingIdx) :
    (s.args2 code w0 w1).ring r = s.ring r := rfl

@[simp] theorem args4_ring (s : State) (code : Byte) (w0 w1 w2 w3 : Word) (r : RingIdx) :
    (s.args4 code w0 w1 w2 w3).ring r = s.ring r := rfl

/-- A write to GO that finds a code of Table 9-4 hands the command to its unit. -/
theorem goWrite_of_ready {s : State} (h : s.ready) (hlo : 1 ≤ s.lpc.cmd.toNat) (hhi : s.lpc.cmd.toNat ≤ 13) :
    s.goWrite = s.takeCommand := by
  obtain ⟨hrun, hidle⟩ := h
  have hcode : ¬ (s.lpc.cmd.toNat < 1 ∨ 13 < s.lpc.cmd.toNat) := by omega
  rw [State.goWrite, if_neg (by simp [State.busy, hrun, hidle]), if_neg hcode, if_neg (by simp [hrun])]

theorem issue_two_words {s : State} (h : s.ready) {code : Byte} (hlo : 1 ≤ code.toNat) (hhi : code.toNat ≤ 13)
    (w0 w1 : Word) : s.issue code [w0, w1] = (s.args2 code w0 w1).takeCommand := by
  have hissue : s.issue code [w0, w1] = (s.args2 code w0 w1).goWrite := if_neg (by simp [h.1])
  rw [hissue, goWrite_of_ready (args2_ready h code w0 w1) hlo hhi]

theorem issue_four_words {s : State} (h : s.ready) {code : Byte} (hlo : 1 ≤ code.toNat) (hhi : code.toNat ≤ 13)
    (w0 w1 w2 w3 : Word) : s.issue code [w0, w1, w2, w3] = (s.args4 code w0 w1 w2 w3).takeCommand := by
  have hissue : s.issue code [w0, w1, w2, w3] = (s.args4 code w0 w1 w2 w3).goWrite := if_neg (by simp [h.1])
  rw [hissue, goWrite_of_ready (args4_ready h code w0 w1 w2 w3) hlo hhi]

theorem exec_openRing_of_ready {s : State} (h : s.ready) (ring base count retain : Word) :
    exec (.openRing ring base count retain) s =
      .next (takeOpen ring base count retain (s.args4 2 ring base count retain)) :=
  congrArg Host.Outcome.next (issue_four_words h (by decide) (by decide) ring base count retain)

theorem exec_retract_of_ready {s : State} (h : s.ready) (ring t : Word) :
    exec (.retract ring t) s = .next (takeRetract ring t (s.args2 4 ring t)) :=
  congrArg Host.Outcome.next (issue_two_words h (by decide) (by decide) ring t)

/-! ### Ring numbers and sequence comparisons -/

theorem ringOfWord_of_le {w : Word} (h : 8 ≤ w.toNat) : ringOfWord w = none :=
  dif_neg (by omega)

theorem ringOfWord_of_eq {w : Word} {r : RingIdx} (h : w.toNat = r.val) : ringOfWord w = some r := by
  simp [ringOfWord, h]

theorem seqUpTo_iff (a b : Seq) : seqUpTo a b = true ↔ (b - a).toNat < 2147483648 := decide_eq_true_iff

theorem seqBefore_iff (a b : Seq) : seqBefore a b = true ↔ 1 ≤ (b - a).toNat ∧ (b - a).toNat < 2147483648 := by
  simp [seqBefore]

/-! ### Placement (R6) -/

/-- The model's comparison of the ends of two areas decides whether they share a byte: the higher of the two bases is one. -/
theorem areasOverlap_iff_sharesByte (b1 n1 b2 n2 : Nat) :
    areasOverlap b1 n1 b2 n2 = true ↔ sharesByte b1 n1 b2 n2 := by
  simp only [areasOverlap, Bool.and_eq_true, decide_eq_true_eq]
  constructor
  · intro h
    exact ⟨max b1 b2, by omega, by omega, by omega, by omega⟩
  · rintro ⟨x, h1, h2, h3, h4⟩
    omega

theorem overlapsAny_iff (base size : Nat) (areas : List (Nat × Nat)) :
    overlapsAny base size areas = true ↔ ∃ a ∈ areas, sharesByte base size a.1 a.2 := by
  simp [overlapsAny, areasOverlap_iff_sharesByte]

theorem mem_publishedAreas (s : State) (a : Nat × Nat) :
    a ∈ s.publishedAreas ↔ ∃ q : RingIdx, (s.ring q).state ≠ .closed ∧ (s.ring q).slotArea = a := by
  simp only [State.publishedAreas, List.mem_map, List.mem_filter, Vector.mem_toList_iff, bne_iff_ne]
  constructor
  · rintro ⟨g, ⟨hmem, hopen⟩, harea⟩
    obtain ⟨k, hk, rfl⟩ := Vector.getElem_of_mem hmem
    exact ⟨⟨k, hk⟩, hopen, harea⟩
  · rintro ⟨q, hopen, harea⟩
    exact ⟨s.ring q, ⟨Vector.getElem_mem q.isLt, hopen⟩, harea⟩

/-- For a CLOSED ring, whose own area does not count, the areas that placement looks at are those of `areaTaken`. -/
theorem overlapsAny_iff_areaTaken {s : State} {r : RingIdx} (hr : (s.ring r).state = .closed) (base size : Nat) :
    overlapsAny base size (fixedRegions s.config ++ s.publishedAreas) = true ↔ s.areaTaken r base size := by
  have hne (q : RingIdx) (hq : (s.ring q).state ≠ .closed) : q ≠ r := fun e => hq (e ▸ hr)
  simp only [overlapsAny_iff, List.mem_append, mem_publishedAreas, fixedRegions, List.mem_cons, List.not_mem_nil, or_false,
    State.areaTaken]
  constructor
  · rintro ⟨a, (rfl | rfl | rfl) | ⟨q, hopen, rfl⟩, hshare⟩
    · exact .inl hshare
    · exact .inr (.inl hshare)
    · exact .inr (.inr (.inl hshare))
    · exact .inr (.inr (.inr ⟨q, hne q hopen, hopen, hshare⟩))
  · rintro (hshare | hshare | hshare | ⟨q, -, hopen, hshare⟩)
    · exact ⟨_, .inl (.inl rfl), hshare⟩
    · exact ⟨_, .inl (.inr (.inl rfl)), hshare⟩
    · exact ⟨_, .inl (.inr (.inr rfl)), hshare⟩
    · exact ⟨_, .inr ⟨q, hopen, rfl⟩, hshare⟩

/-! ### Checks 3 to 5 of OPEN (R7) -/

theorem slotCountOk_iff (count : Word) :
    [16, 32, 64, 128, 256, 512].contains count.toNat = true ↔ slotCountOk count := by
  simp [slotCountOk, ← BitVec.toNat_inj]

theorem slotCountOk_pos {count : Word} (h : slotCountOk count) : 0 < count.toNat := by
  rcases h with rfl | rfl | rfl | rfl | rfl | rfl <;> decide

theorem insideMemory_iff {base size : Nat} (h : 0 < size) : insideMemory base size = true ↔ base + size ≤ 262144 := by
  rw [insideMemory, Bool.or_eq_true, decide_eq_true_eq, decide_eq_true_eq, Config.memoryBytes]
  omega

theorem openCheck_of_bad_fields (s : State) {base count retain : Word} (h : ¬ slotCountOk count ∨ 1 < retain.toNat) :
    s.openCheck base count retain = some .badArg := by
  rw [← slotCountOk_iff] at h
  exact if_pos (by simpa only [Bool.or_eq_true, Bool.not_eq_true', Bool.not_eq_true, decide_eq_true_eq] using h)

section
variable (s : State) {base count retain : Word} (hcount : slotCountOk count) (hretain : retain.toNat ≤ 1)
include hcount hretain

/-- With good fields the judgement is that of the slot area: its placement in memory, then what it meets. -/
theorem openCheck_of_good_fields :
    s.openCheck base count retain =
      if base.toNat % 16 ≠ 0 ∨ 262144 < base.toNat + 16 * count.toNat then some .badArg
      else if overlapsAny base.toNat (16 * count.toNat) (fixedRegions s.config ++ s.publishedAreas) then some .overlap
      else none := by
  have hsize : 0 < 16 * count.toNat := Nat.mul_pos (by decide) (slotCountOk_pos hcount)
  have hfields : (!([16, 32, 64, 128, 256, 512].contains count.toNat) || decide (1 < retain.toNat)) = false := by
    rw [(slotCountOk_iff count).2 hcount]
    simpa using hretain
  have harea : (decide (base.toNat % 16 ≠ 0) || !insideMemory base.toNat (16 * count.toNat)) = true ↔
      (base.toNat % 16 ≠ 0 ∨ 262144 < base.toNat + 16 * count.toNat) := by
    rw [Bool.or_eq_true, decide_eq_true_eq, Bool.not_eq_true', ← Bool.not_eq_true, insideMemory_iff hsize, Nat.not_le]
  simp only [State.openCheck, hfields, harea, Bool.false_eq_true, if_false]

theorem openCheck_of_bad_area (h : base.toNat % 16 ≠ 0 ∨ 262144 < base.toNat + 16 * count.toNat) :
    s.openCheck base count retain = some .badArg := by
  rw [openCheck_of_good_fields s hcount hretain, if_pos h]

variable (halign : base.toNat % 16 = 0) (hend : base.toNat + 16 * count.toNat ≤ 262144)
  {r : RingIdx} (hr : (s.ring r).state = .closed)
include halign hend hr

theorem openCheck_of_areaTaken (h : s.areaTaken r base.toNat (16 * count.toNat)) :
    s.openCheck base count retain = some .overlap := by
  rw [openCheck_of_good_fields s hcount hretain, if_neg (by omega), if_pos ((overlapsAny_iff_areaTaken hr _ _).2 h)]

theorem openCheck_of_not_areaTaken (h : ¬ s.areaTaken r base.toNat (16 * count.toNat)) :
    s.openCheck base count retain = none := by
  rw [openCheck_of_good_fields s hcount hretain, if_neg (by omega), if_neg (mt (overlapsAny_iff_areaTaken hr _ _).1 h)]

end

/-! ### OPEN (R7, R8) -/

theorem takeOpen_of_no_ring {ring : Word} (h : 8 ≤ ring.toNat) (base count retain : Word) (s : State) :
    takeOpen ring base count retain s = s.finish .badArg 0 0 := by
  simp only [takeOpen, ringOfWord_of_le h, State.refuse]

section
variable {ring : Word} {r : RingIdx} {s : State} (hring : ring.toNat = r.val)
include hring

theorem takeOpen_of_not_closed (h : (s.ring r).state ≠ .closed) (base count retain : Word) :
    takeOpen ring base count retain s = s.finish .state 0 0 := by
  simp only [takeOpen, ringOfWord_of_eq hring, State.refuse, if_pos h]

variable (hclosed : (s.ring r).state = .closed) {base count retain : Word}
include hclosed

theorem takeOpen_of_openCheck_some {c : ResultCode} (h : s.openCheck base count retain = some c) :
    takeOpen ring base count retain s = s.finish c 0 0 := by
  simp only [takeOpen, ringOfWord_of_eq hring, State.refuse, if_neg (not_not.2 hclosed), h]

theorem takeOpen_of_openCheck_none (h : s.openCheck base count retain = none) :
    takeOpen ring base count retain s =
      (s.modRing r fun g => g.opening base count retain).finish .ok (((s.ring r).epoch + 1).setWidth 32) 0 := by
  simp only [takeOpen, ringOfWord_of_eq hring, if_neg (not_not.2 hclosed), h]

end

/-- R7: each check of OPEN refuses with its code when those before it pass. -/
theorem openRefusals : Part.OpenRefusals := by
  intro ring base count retain s hs
  dsimp only
  simp only [exec_openRing_of_ready hs, Host.Outcome.next.injEq]
  refine ⟨fun h => takeOpen_of_no_ring h _ _ _ _, fun r hring => ⟨fun h => ?_, fun hclosed => ?_⟩⟩
  · exact takeOpen_of_not_closed (s := s.args4 2 ring base count retain) hring h _ _ _
  · have refused {c : ResultCode} (h : s.openCheck base count retain = some c) :=
      takeOpen_of_openCheck_some (s := s.args4 2 ring base count retain) hring hclosed h
    exact ⟨fun h => refused (openCheck_of_bad_fields s h), fun hcount hretain =>
      ⟨fun h => refused (openCheck_of_bad_area s hcount hretain h), fun halign hend h =>
        refused (openCheck_of_areaTaken s hcount hretain halign hend hclosed h)⟩⟩

/-- R8: an OPEN that passes the checks leaves the record of a new epoch. -/
theorem openStartsEpoch : Part.OpenStartsEpoch := by
  intro ring base count retain r s hs hring hclosed hcount hretain halign hend hfree
  rw [exec_openRing_of_ready hs, takeOpen_of_openCheck_none (s := s.args4 2 ring base count retain) hring hclosed
    (openCheck_of_not_areaTaken s hcount hretain halign hend hclosed hfree)]
  rfl

/-- Settles O7: the checks of R7 in their order, and the epoch that R8 starts. -/
theorem openOutcomes : Obligations.OpenOutcomes := ⟨openRefusals, openStartsEpoch⟩

/-! ### RETRACT (R14, R15) -/

theorem takeRetract_of_no_ring {ring : Word} (h : 8 ≤ ring.toNat) (t : Word) (s : State) :
    takeRetract ring t s = s.finish .badArg 0 0 := by
  simp only [takeRetract, ringOfWord_of_le h, State.refuse]

section
variable {ring : Word} {r : RingIdx} {s : State} (hring : ring.toNat = r.val)
include hring

theorem takeRetract_of_not_opened (h : (s.ring r).state ≠ .opened) (t : Word) :
    takeRetract ring t s = s.finish .state 0 0 := by
  simp only [takeRetract, ringOfWord_of_eq hring, State.refuse, if_pos h]

/-- RETRACT of an OPEN ring: the two comparisons of R14 as distances on the circle, then R15's two outcomes. -/
theorem takeRetract_of_opened (h : (s.ring r).state = .opened) (t : Word) :
    takeRetract ring t s =
      if 2147483648 ≤ ((s.ring r).tail - t).toNat then s.finish .badArg 0 0
      else if 1 ≤ ((s.ring r).commit - t).toNat ∧ ((s.ring r).commit - t).toNat < 2147483648 then
        s.finish .belowCommit (s.ring r).commit 0
      else if t = (s.ring r).tail then s.finish .ok (s.ring r).tail ((s.ring r).revision.setWidth 32)
      else (s.modRing r fun g => { g with tail := t, revision := g.revision + 1, announcePending := true }).finish .ok t
        (((s.ring r).revision + 1).setWidth 32) := by
  have above : (!seqUpTo t (s.ring r).tail) = true ↔ 2147483648 ≤ ((s.ring r).tail - t).toNat := by
    rw [Bool.not_eq_true', ← Bool.not_eq_true, seqUpTo_iff, Nat.not_lt]
  simp only [takeRetract, ringOfWord_of_eq hring, State.refuse, if_neg (not_not.2 h), above, seqBefore_iff]

end

/-- Settles O10: the branches of RETRACT, one clause each. -/
theorem retractOutcomes : Obligations.RetractOutcomes := by
  intro ring t s hs
  dsimp only
  simp only [exec_retract_of_ready hs, Host.Outcome.next.injEq]
  refine ⟨fun h => takeRetract_of_no_ring h _ _, fun r hring => ⟨fun h => ?_, fun hopen => ?_⟩⟩
  · exact takeRetract_of_not_opened (s := s.args2 4 ring t) hring h _
  · rw [takeRetract_of_opened (s := s.args2 4 ring t) hring hopen, args2_ring]
    refine ⟨fun habove => if_pos habove, fun hupto => ?_⟩
    rw [if_neg (Nat.not_le.2 hupto)]
    refine ⟨fun hbelow => if_pos hbelow, fun hcommit => ?_⟩
    rw [if_neg hcommit]
    exact ⟨fun heq => if_pos heq, fun hne => if_neg hne⟩

end Sys2Proof.Machine
end

section
/-! PROOFS. A command of one argument word in a station that is ready, the operand that names a subscription, and what DISMISS
(R46) does. -/
namespace Sys2Proof.Machine

/-! ### Issuing a command of one word (R181) -/

theorem args1_ready {s : State} (h : s.ready) (code : Byte) (w0 : Word) : (s.args1 code w0).ready := h

@[simp] theorem args1_sub (s : State) (code : Byte) (w0 : Word) (i : SubIdx) : (s.args1 code w0).sub i = s.sub i := rfl

theorem issue_one_word {s : State} (h : s.ready) {code : Byte} (hlo : 1 ≤ code.toNat) (hhi : code.toNat ≤ 13)
    (w0 : Word) : s.issue code [w0] = (s.args1 code w0).takeCommand := by
  have hissue : s.issue code [w0] = (s.args1 code w0).goWrite := if_neg (by simp [h.1])
  rw [hissue, goWrite_of_ready (args1_ready h code w0) hlo hhi]

theorem exec_dismiss_of_ready {s : State} (h : s.ready) (w0 : Word) :
    exec (.dismiss w0) s = .next (takeDismiss w0 (s.args1 10 w0)) :=
  congrArg Host.Outcome.next (issue_one_word h (by decide) (by decide) w0)

/-! ### Subscription indices -/

theorem subOfWord_of_le {w : Word} (h : 24 ≤ w.toNat) : subOfWord w = none :=
  dif_neg (by omega)

theorem subOfWord_of_eq {w : Word} {i : SubIdx} (h : w.toNat = i.val) : subOfWord w = some i := by
  simp [subOfWord, h]

/-! ### DISMISS (R46) -/

theorem takeDismiss_of_no_sub {w0 : Word} (h : 24 ≤ w0.toNat) (s : State) :
    takeDismiss w0 s = s.finish .badArg 0 0 := by
  simp only [takeDismiss, subOfWord_of_le h, State.refuse]

section
variable {w0 : Word} {i : SubIdx} {s : State} (hsub : w0.toNat = i.val)
include hsub

theorem takeDismiss_of_not_ended (h : (s.sub i).state ≠ .ended) : takeDismiss w0 s = s.finish .state 0 0 := by
  simp only [takeDismiss, subOfWord_of_eq hsub, State.refuse, if_pos h]

variable (hended : (s.sub i).state = .ended)
include hended

/-- R46: with records still to retire, result word 0 gives their number. -/
theorem takeDismiss_of_unretired (h : (s.sub i).rm ≠ (s.sub i).dp) :
    takeDismiss w0 s = s.finish .pending ((s.sub i).dp - (s.sub i).rm) 0 := by
  simp only [takeDismiss, subOfWord_of_eq hsub, if_neg (not_not.2 hended), if_pos h]

/-- R46: the record becomes FREE, and keeps its flush generation alone. -/
theorem takeDismiss_of_retired (h : (s.sub i).rm = (s.sub i).dp) :
    takeDismiss w0 s = (s.modSub i fun b => Sub.fresh b.generation).finish .ok 0 0 := by
  simp only [takeDismiss, subOfWord_of_eq hsub, if_neg (not_not.2 hended), if_neg (not_not.2 h)]

end

/-- Settles O16: the branches of DISMISS, one clause each. -/
theorem dismissOutcomes : Obligations.DismissOutcomes := by
  intro w0 s hs
  dsimp only
  simp only [exec_dismiss_of_ready hs, Host.Outcome.next.injEq]
  refine ⟨fun h => takeDismiss_of_no_sub h _, fun i hsub => ⟨fun h => ?_, fun hended h => ?_, fun hended h => ?_⟩⟩
  · exact takeDismiss_of_not_ended (s := s.args1 10 w0) hsub h
  · exact takeDismiss_of_unretired (s := s.args1 10 w0) hsub hended h
  · exact takeDismiss_of_retired (s := s.args1 10 w0) hsub hended h

end Sys2Proof.Machine
end

section
/-! PROOFS. The close of a ring while the command slot is free (R141), and what WITHDRAW (R138, R139) does. -/
namespace Sys2Proof.Machine

theorem exec_withdraw_of_ready {s : State} (h : s.ready) (ring drain : Word) :
    exec (.withdraw ring drain) s = .next (takeWithdraw ring drain (s.args2 5 ring drain)) :=
  congrArg Host.Outcome.next (issue_two_words h (by decide) (by decide) ring drain)

/-! ### Two changes of one ring record, and the close (R141) -/

theorem modRing_modRing (s : State) (r : RingIdx) (f g : Ring → Ring) :
    (s.modRing r f).modRing r g = s.modRing r fun x => g (f x) := by
  simp only [State.modRing, State.ring, Vector.get_eq_getElem, Vector.getElem_set_self, Vector.set_set]

theorem modRing_finish (s : State) (r : RingIdx) (f : Ring → Ring) (c : ResultCode) (w0 w1 : Word) :
    (s.finish c w0 w1).modRing r f = (s.modRing r f).finish c w0 w1 := rfl

@[simp] theorem ring_finish (s : State) (r : RingIdx) (c : ResultCode) (w0 w1 : Word) :
    (s.finish c w0 w1).ring r = s.ring r := rfl

/-- With the command slot free there is no validation that reads on before a close. -/
theorem progressValidation_of_idle {s : State} (h : s.lpc.slot = .idle) : progressValidation s = s := by
  simp only [progressValidation, h]

theorem closeRing_of_idle {s : State} (h : s.lpc.slot = .idle) (r : RingIdx) (reason : Byte) :
    s.closeRing r reason = (s.modRing r Ring.close).postRing .ringClosed r reason
      (BitVec.ofNat 32 (s.ring r).roster.length) := by
  rw [State.closeRing, progressValidation_of_idle h]

/-! ### WITHDRAW (R138, R139) -/

theorem takeWithdraw_of_no_ring {ring : Word} (h : 8 ≤ ring.toNat) (drain : Word) (s : State) :
    takeWithdraw ring drain s = s.finish .badArg 0 0 := by
  simp only [takeWithdraw, ringOfWord_of_le h, State.refuse]

/-- The drain word has the same code as the ring number, so it does not matter which of the two is wrong. -/
theorem takeWithdraw_of_long_drain {drain : Word} (h : 65535 < drain.toNat) (ring : Word) (s : State) :
    takeWithdraw ring drain s = s.finish .badArg 0 0 := by
  cases hring : ringOfWord ring with
  | none => simp only [takeWithdraw, hring, State.refuse]
  | some r => simp only [takeWithdraw, hring, State.refuse, if_pos h]

theorem closes_at_once_iff (g : Ring) (drain : Word) :
    (g.roster.isEmpty || drain == 0) = true ↔ g.roster = [] ∨ drain = 0 := by
  rw [Bool.or_eq_true, List.isEmpty_iff, beq_iff_eq]

section
variable {ring drain : Word} {r : RingIdx} {s : State} (hring : ring.toNat = r.val) (hdrain : drain.toNat ≤ 65535)
include hring hdrain

theorem takeWithdraw_of_not_opened (h : (s.ring r).state ≠ .opened) :
    takeWithdraw ring drain s = s.finish .state 0 0 := by
  simp only [takeWithdraw, ringOfWord_of_eq hring, State.refuse, if_neg (Nat.not_lt.2 hdrain), if_pos h]

variable (hopen : (s.ring r).state = .opened)
include hopen

/-- R139, step 6: members are given the drain time to finish. -/
theorem takeWithdraw_of_drain (hroster : (s.ring r).roster ≠ []) (hpos : drain ≠ 0) :
    takeWithdraw ring drain s =
      (s.modRing r fun g => { g with state := .withdrawing, announcePending := true, drain := some drain.toNat }).finish
        .ok (s.ring r).tail (BitVec.ofNat 32 (s.ring r).roster.length) := by
  have hstays := mt (closes_at_once_iff (s.ring r) drain).1 (not_or.2 ⟨hroster, hpos⟩)
  simp only [takeWithdraw, ringOfWord_of_eq hring, if_neg (Nat.not_lt.2 hdrain), if_neg (not_not.2 hopen), if_neg hstays,
    modRing_finish, modRing_modRing]

/-- R139, steps 4 and 5: the close undoes the announce pending of step 2, and counts the members it drops. -/
theorem takeWithdraw_at_once (h : (s.ring r).roster = [] ∨ drain = 0) :
    takeWithdraw ring drain s =
      ((s.modRing r Ring.close).finish .ok (s.ring r).tail (BitVec.ofNat 32 (s.ring r).roster.length)).postRing
        .ringClosed r 2 (BitVec.ofNat 32 (s.ring r).roster.length) := by
  have hcloses := (closes_at_once_iff (s.ring r) drain).2 h
  simp only [takeWithdraw, ringOfWord_of_eq hring, if_neg (Nat.not_lt.2 hdrain), if_neg (not_not.2 hopen), if_pos hcloses]
  rw [closeRing_of_idle rfl, modRing_finish, modRing_modRing, ring_finish, ring_modRing_self]
  rfl

end

/-- Settles O11: the branches of WITHDRAW, one clause each. -/
theorem withdrawOutcomes : Obligations.WithdrawOutcomes := by
  intro ring drain s hs
  dsimp only
  simp only [exec_withdraw_of_ready hs, Host.Outcome.next.injEq]
  refine ⟨?_, fun r hring hdrain => ⟨fun h => ?_, fun hopen hroster hpos => ?_, fun hopen h => ?_⟩⟩
  · rintro (hno_ring | hlong)
    · exact takeWithdraw_of_no_ring hno_ring _ _
    · exact takeWithdraw_of_long_drain hlong _ _
  · exact takeWithdraw_of_not_opened (s := s.args2 5 ring drain) hring hdrain h
  · exact takeWithdraw_of_drain (s := s.args2 5 ring drain) hring hdrain hopen hroster hpos
  · exact takeWithdraw_at_once (s := s.args2 5 ring drain) hring hdrain hopen h

end Sys2Proof.Machine
end

section
/-! PROOFS. The elementary changes of which every command but a reset and the completion of a START is made. Each comes with
what it leaves true of the queues, the request tracker, the Delivery Queue and the subscription records, so that an invariant
is checked once per elementary change (`Acts.keeps`) and not once per command. -/
namespace Sys2Proof.Machine

variable {own : Bool}

/-- The records of a subscription delivered and not yet retired (R96). -/
def Sub.unretired (b : Sub) : Nat := (b.dp - b.rm).toNat

/-- A change of a subscription record that neither ends it, nor gives a waiting claim to one that is not live, nor leaves more
than 64 records unretired. -/
structure Tame (b c : Sub) : Prop where
  live      : b.state.live = true → c.state.live = true
  claims    : c.claims ≠ [] → b.claims ≠ [] ∨ c.state.live = true
  unretired : b.unretired ≤ Config.unretiredLimit → c.unretired ≤ Config.unretiredLimit

/-- A record that keeps its state, its claims, RM and DP is changed tamely. -/
theorem Tame.of_same {b c : Sub} (hstate : c.state = b.state) (hclaims : c.claims = b.claims) (hrm : c.rm = b.rm)
    (hdp : c.dp = b.dp) : Tame b c :=
  ⟨fun h => hstate ▸ h, fun h => .inl (hclaims ▸ h), fun h => by rwa [Sub.unretired, hrm, hdp]⟩

/-- One elementary change. With `own` false it leaves to the publisher's side its rings, replies and pointers, and to the local
port its registers. -/
inductive Act (own : Bool) (s : State) : State → Prop
  | sub (i : SubIdx) (b : Sub) (h : Tame (s.sub i) b) : Act own s (s.modSub i fun _ => b)
  | bury (i : SubIdx) (b : Sub) (hnone : s.nothingOutstanding i = true) (hclaims : b.claims = [])
      (hrm : b.rm = (s.sub i).rm) (hdp : b.dp = (s.sub i).dp) : Act own s (s.modSub i fun _ => b)
  | track (r : Rqt) (hroom : s.rqt.queue.length ≤ Config.requestPlaces → r.queue.length ≤ Config.requestPlaces)
      (howned : ∀ t b, (r.tags.get t).bound = some b →
        (∃ u c, (s.tag u).bound = some c ∧ c.sub = b.sub) ∨ (s.sub b.sub).claims ≠ []) : Act own s { s with rqt := r }
  | cache (d : Dpc) : Act own s { s with dpc := d }
  | pool (p : Pdu) (hblocks : p.blocks.length = s.pdu.blocks.length) (hcapacity : p.capacity = s.pdu.capacity)
      (hwrite : p.writeIndex = s.pdu.writeIndex) (hread : p.readIndex = s.pdu.readIndex) (hfill : p.fill = s.pdu.fill) :
      Act own s { s with pdu := p }
  | count (i : SubIdx) (h : s.pdu.fill < s.pdu.capacity) : Act own s (s.countRecord i)
  | accept (k : Nat) (h : k ≤ s.pdu.fill) :
      Act own s { s with pdu := { s.pdu with readIndex := (s.pdu.readIndex + k) % s.pdu.capacity, fill := s.pdu.fill - k } }
  | store (m : Memory) (h : s.memory.wf = true → m.wf = true) : Act own s { s with memory := m }
  | port (l : Lpc) (hown : own = true) (hconfig : l.config = s.lpc.config) (hnotices : l.notices = s.lpc.notices)
      (hlost : l.lost = s.lpc.lost) (hdropped : l.dropped = s.lpc.dropped) (hstate : l.state = s.lpc.state) :
      Act own s { s with lpc := l }
  | post (n : Notice) : Act own s (s.post n)
  | readNotice (hown : own = true) : Act own s s.readNotice
  | oneOff (l : List Frame) (h : s.liu.oneOff.length ≤ Config.oneOffPlaces → l.length ≤ Config.oneOffPlaces) :
      Act own s { s with liu := { s.liu with oneOff := l } }
  | link (l : Liu) (hown : own = true)
      (honeOff : s.liu.oneOff.length ≤ Config.oneOffPlaces → l.oneOff.length ≤ Config.oneOffPlaces)
      (hreplies : s.liu.replies.length ≤ Config.replyPlaces → l.replies.length ≤ Config.replyPlaces) :
      Act own s { s with liu := l }
  | publish (p : Pub) (hown : own = true)
      (h : s.pub.serveQueue.length ≤ Config.servePlaces → p.serveQueue.length ≤ Config.servePlaces) :
      Act own s { s with pub := p }
  | draw (n : Nat) : Act own s { s with freeIndex := n }

/-- A chain of elementary changes. -/
abbrev Acts (own : Bool) : State → State → Prop := Relation.ReflTransGen (Act own)

theorem Act.acts {s t : State} (h : Act own s t) : Acts own s t := .single h

theorem Acts.refl (s : State) : Acts own s s := Relation.ReflTransGen.refl

/-- What every elementary change keeps, a chain of them keeps. -/
theorem Acts.keeps {inv : State → Prop} (hact : ∀ s t, Act own s t → inv s → inv t) {s t : State} (h : Acts own s t) (hs : inv s) :
    inv t := by
  induction h with
  | refl => exact hs
  | tail _ hlast ih => exact hact _ _ hlast ih

theorem Acts.ite {c : Prop} [Decidable c] {s t u : State} (ht : c → Acts own s t) (hu : ¬ c → Acts own s u) :
    Acts own s (if c then t else u) := by split <;> solve_by_elim

theorem Acts.foldl {α : Type} {f : State → α → State} (hf : ∀ s x, Acts own s (f s x)) :
    ∀ (l : List α) (s : State), Acts own s (l.foldl f s)
  | [], s => .refl s
  | x :: l, s => (hf s x).trans (Acts.foldl hf l (f s x))

/-! ### The updates of single records and tables -/

theorem modSub_acts (s : State) (i : SubIdx) (f : Sub → Sub) (h : Tame (s.sub i) (f (s.sub i))) : Acts own s (s.modSub i f) :=
  (Act.sub i _ h).acts

theorem mapLines_acts (s : State) (f : Line → Line) : Acts own s (s.mapLines f) := (Act.cache _).acts

theorem setLine_acts (s : State) (l : LineIdx) (x : Line) : Acts own s (s.setLine l x) := (Act.cache _).acts

theorem setEntry_acts (s : State) (i : SubIdx) (q : Seq) (e : Entry) : Acts own s (s.setEntry i q e) := mapLines_acts _ _

theorem releaseLines_acts (s : State) (i : SubIdx) : Acts own s (s.releaseLines i) := mapLines_acts _ _

theorem trimLines_acts (s : State) (i : SubIdx) : Acts own s (s.trimLines i) := by
  unfold State.trimLines
  dsimp only
  split
  · split
    · exact (mapLines_acts _ _).trans (setLine_acts _ _ _)
    · exact mapLines_acts _ _
  · exact mapLines_acts _ _

theorem mapBlocks_acts (s : State) (f : Block → Block) : Acts own s (s.mapBlocks f) :=
  (Act.pool (s := s) (s.mapBlocks f).pdu (List.length_map f) rfl rfl rfl rfl).acts

theorem discardBlocks_acts (s : State) (i : SubIdx) (p : Seq → Bool) : Acts own s (s.discardBlocks i p) := mapBlocks_acts _ _

theorem putBytes_eq (bs : List Byte) :
    ∀ (s : State) (a : Addr), s.putBytes a bs = { s with memory := (s.putBytes a bs).memory } := by
  induction bs with
  | nil => exact fun _ _ => rfl
  | cons b bs ih => exact fun s a => ih (s.putByte a b) (a + 1)

theorem putBytes_acts (s : State) (a : Addr) (bs : List Byte) : Acts own s (s.putBytes a bs) := by
  rw [putBytes_eq]
  exact (Act.store _ fun hm => wf_putBytes hm).acts

theorem postSub_acts (s : State) (k : NoticeKind) (i : SubIdx) (b : Byte) (w : Word) : Acts own s (s.postSub k i b w) :=
  (Act.post _).acts

theorem postRing_acts (s : State) (k : NoticeKind) (r : RingIdx) (b : Byte) (w : Word) : Acts own s (s.postRing k r b w) :=
  (Act.post _).acts

theorem placeOneOff_acts (s : State) (f : Frame) : Acts own s (s.placeOneOff f) := by
  unfold State.placeOneOff
  refine Acts.ite (fun hroom => (Act.oneOff (s := s) (s.liu.oneOff ++ [f]) fun _ => ?_).acts)
    fun _ => .refl s
  rw [List.length_append]
  exact hroom

theorem finish_acts (s : State) (c : ResultCode) (w0 w1 : Word) : Acts true s (s.finish c w0 w1) :=
  (Act.port (s := s) (s.finish c w0 w1).lpc rfl rfl rfl rfl rfl rfl).acts

theorem modRing_acts (s : State) (r : RingIdx) (f : Ring → Ring) : Acts true s (s.modRing r f) :=
  (Act.publish (s := s) (s.modRing r f).pub rfl id).acts

/-! ### The request tracker -/

theorem nothingOutstanding_iff (s : State) (i : SubIdx) : s.nothingOutstanding i = true ↔
    (∀ t b, (s.tag t).bound = some b → b.sub ≠ i) ∧ (s.sub i).claims = [] := by
  have hbound : s.anyBound i = true ↔ ∃ t b, (s.tag t).bound = some b ∧ b.sub = i := by
    simp only [State.anyBound, List.any_eq_true, Vector.mem_toList_iff]
    constructor
    · rintro ⟨g, hg, h⟩
      obtain ⟨k, hk, rfl⟩ := Vector.getElem_of_mem hg
      unfold Tag.boundTo at h
      split at h
      · rename_i b hb
        exact ⟨⟨k, hk⟩, b, hb, by simpa using h⟩
      · simp at h
    · rintro ⟨t, b, hb, rfl⟩
      refine ⟨s.tag t, Vector.getElem_mem t.isLt, ?_⟩
      simp [Tag.boundTo, hb]
  rw [State.nothingOutstanding, Bool.and_eq_true, Bool.not_eq_true', ← Bool.not_eq_true, hbound, List.isEmpty_iff]
  simp only [not_exists, not_and, ne_eq]

/-- A change of tags that binds none anew. -/
theorem track_acts (s : State) (r : Rqt) (hroom : s.rqt.queue.length ≤ 16 → r.queue.length ≤ 16)
    (hbound : ∀ t b, (r.tags.get t).bound = some b → ∃ c, (s.tag t).bound = some c ∧ c.sub = b.sub) :
    Acts own s { s with rqt := r } :=
  (Act.track r hroom fun t b h => .inl ⟨t, hbound t b h⟩).acts

theorem modTag_bound {s : State} {t u : TagIdx} {f : Tag → Tag} {b : Binding} (h : ((s.modTag t f).tag u).bound = some b) :
    (u = t ∧ (f (s.tag t)).bound = some b) ∨ (u ≠ t ∧ (s.tag u).bound = some b) := by
  by_cases e : u = t
  · subst e; left; exact ⟨rfl, by rwa [tag_modTag_self] at h⟩
  · right; exact ⟨e, by rwa [tag_modTag_ne s f (Ne.symm e)] at h⟩

/-- A tag as a grant leaves it (R112, steps 1 to 3). -/
def Tag.granted (g : Tag) (i : SubIdx) (q : Request) : Tag :=
  { useCount := g.useCount + 1, bound := some { sub := i, request := q, attempts := 1, deadline := none } }

theorem grantTo_acts (s : State) {t : TagIdx} {i : SubIdx} {q : Request} {rest : List Request}
    (hroom : s.rqt.queue.length < 16) (hclaims : (s.sub i).claims = q :: rest) : Acts own s (s.grantTo t i q) := by
  have hwaits : (s.sub i).claims ≠ [] := by simp [hclaims]
  have htrack : Act own s { s with rqt := { s.rqt with
      tags := s.rqt.tags.set t ((s.tag t).granted i q), queue := s.rqt.queue ++ [t], tagPtr := t, tagGrantPtr := i } } := by
    refine Act.track _ (fun _ => by rw [List.length_append]; exact hroom) fun u b hb => ?_
    rcases modTag_bound (s := s) (t := t) (f := fun g => g.granted i q) hb with ⟨rfl, hg⟩ | ⟨_, hu⟩
    · obtain rfl := Option.some.inj hg
      exact .inr hwaits
    · exact .inl ⟨u, b, hu, rfl⟩
  exact .tail htrack.acts (Act.sub i { s.sub i with claims := (s.sub i).claims.drop 1 } ⟨id, fun _ => .inl hwaits, id⟩)

theorem grantOnce_eq_some {s t : State} (h : grantOnce s = some t) : ∃ g i q rest, s.rqt.queue.length < 16 ∧
    s.rqt.retryLine = [] ∧ s.nextTag = some g ∧ s.nextClaimant = some i ∧ (s.sub i).claims = q :: rest ∧
    t = s.grantTo g i q := by
  unfold grantOnce at h
  split at h
  · rename_i hc
    obtain ⟨hroom, hline⟩ := (Bool.and_eq_true _ _).mp hc
    split at h
    · rename_i g i hg hi
      split at h
      · exact absurd h (by simp)
      · rename_i q rest hq
        exact ⟨g, i, q, rest, of_decide_eq_true hroom, List.isEmpty_iff.1 hline, hg, hi, hq, (Option.some.inj h).symm⟩
    · exact absurd h (by simp)
  · exact absurd h (by simp)

theorem moveRetryOnce_eq_some {s t : State} (h : moveRetryOnce s = some t) : ∃ g rest, s.rqt.retryLine = g :: rest ∧
    s.rqt.queue.length < 16 ∧ t = { s with rqt := { s.rqt with queue := s.rqt.queue ++ [g], retryLine := rest } } := by
  unfold moveRetryOnce at h
  split at h
  · exact absurd h (by simp)
  · rename_i g rest hline
    split at h
    · rename_i hroom
      exact ⟨g, rest, hline, of_decide_eq_true hroom, (Option.some.inj h).symm⟩
    · exact absurd h (by simp)

theorem freeTag_acts (s : State) (t : TagIdx) : Acts own s (s.freeTag t) := by
  refine track_acts s _ (fun h => (List.length_filter_le _ _).trans h) fun u b hb => ?_
  rcases modTag_bound (s := s) (t := t) (f := fun g => { g with bound := none }) hb with ⟨_, h⟩ | ⟨_, h⟩
  · exact absurd h (by simp)
  · exact ⟨b, h, rfl⟩

/-- A bound tag is bound anew for the same subscription. -/
theorem rebind_acts (s : State) (t : TagIdx) {b c : Binding} (hb : (s.tag t).bound = some b) (hc : c.sub = b.sub)
    (queue line : List TagIdx) (hroom : s.rqt.queue.length ≤ 16 → queue.length ≤ 16) :
    Acts own s { s with rqt := { (s.modTag t fun g => { g with bound := some c }).rqt with queue := queue, retryLine := line } } := by
  refine track_acts s _ hroom fun u d hd => ?_
  rcases modTag_bound (s := s) (t := t) (f := fun g => { g with bound := some c }) hd with ⟨rfl, h⟩ | ⟨_, h⟩
  · obtain rfl := Option.some.inj h
    exact ⟨b, hb, hc.symm⟩
  · exact ⟨d, h, rfl⟩

theorem cancelRequests_acts (s : State) (i : SubIdx) : Acts own s (s.cancelRequests i) := by
  unfold State.cancelRequests
  refine Relation.ReflTransGen.trans ?_ (modSub_acts _ i _ ⟨id, fun h => absurd rfl h, id⟩)
  refine track_acts s _ (fun h => (List.length_filter_le _ _).trans h) fun u b hb => ?_
  rw [mapTable_get] at hb
  split at hb
  · exact absurd hb (by simp)
  · exact ⟨b, hb, rfl⟩

theorem nothingOutstanding_cancelRequests (s : State) (i : SubIdx) : (s.cancelRequests i).nothingOutstanding i = true := by
  refine (nothingOutstanding_iff _ _).2 ⟨fun t b hb => ?_, ?_⟩
  · have hb' : ((mapTable (fun (g : Tag) => if g.boundTo i then { g with bound := none } else g) s.rqt.tags).get t).bound =
      some b := hb
    rw [mapTable_get] at hb'
    split at hb'
    · exact absurd hb' (by simp)
    · rename_i hto
      rintro rfl
      simp [Tag.boundTo, hb'] at hto
  · simp [State.cancelRequests]

theorem nothingOutstanding_congr {s t : State} (hsubs : t.subs = s.subs) (hrqt : t.rqt = s.rqt) (i : SubIdx) :
    t.nothingOutstanding i = s.nothingOutstanding i := by
  unfold State.nothingOutstanding State.anyBound State.sub
  rw [hsubs, hrqt]

/-! ### Ends -/

theorem ended_acts (s : State) (i : SubIdx) (e : EndReason) (w : Word) (h : s.nothingOutstanding i = true) :
    Acts own s (s.modSub i fun b => b.ended e w) :=
  (Act.bury i ((s.sub i).ended e w) h ((nothingOutstanding_iff _ _).1 h).2 rfl rfl).acts

theorem completeFinishing_acts (s : State) (i : SubIdx) : Acts own s (s.completeFinishing i) := by
  unfold State.completeFinishing
  refine .trans (cancelRequests_acts s i) (.trans (discardBlocks_acts _ i _) (.trans (placeOneOff_acts _ _)
    (.trans (releaseLines_acts _ i) (.trans (ended_acts _ i _ _ ?_) (postSub_acts _ _ _ _ _)))))
  rw [nothingOutstanding_congr (s := s.cancelRequests i) (by simp [State.releaseLines, State.discardBlocks])
    (by simp [State.releaseLines, State.discardBlocks])]
  exact nothingOutstanding_cancelRequests s i

theorem completeLeave_acts (s : State) (i : SubIdx) (h : s.nothingOutstanding i = true) : Acts own s (s.completeLeave i) := by
  unfold State.completeLeave
  refine .trans (discardBlocks_acts s i _) (.trans (placeOneOff_acts _ _)
    (.trans (releaseLines_acts _ i) (.trans (ended_acts _ i _ _ ?_) (postSub_acts _ _ _ _ _))))
  rwa [nothingOutstanding_congr (s := s) (by simp [State.releaseLines, State.discardBlocks])
    (by simp [State.releaseLines, State.discardBlocks])]

end Sys2Proof.Machine
end

section
/-! PROOFS. The moves of the engines: the elementary changes that the fetch decision and the grants, the block grant round, a
delivery, and the completions of FINISHING and of a leave are made of, each under the condition that it stands under. What
follows an event (log 9) is a chain of moves, so that its effect on one record is a case split over the moves. -/
namespace Sys2Proof.Machine

variable {own : Bool}

/-! ### Changes of the cache's lines alone -/

/-- `t` differs from `s` in the lines of the cache at most. -/
def LinesOnly (s t : State) : Prop := t = { s with dpc := { s.dpc with lines := t.dpc.lines } }

theorem LinesOnly.refl (s : State) : LinesOnly s s := rfl

theorem LinesOnly.trans {s t u : State} (h : LinesOnly s t) (k : LinesOnly t u) : LinesOnly s u := by
  unfold LinesOnly at *; rw [k, h]

theorem LinesOnly.subs {s t : State} (h : LinesOnly s t) : t.subs = s.subs := by rw [h]

theorem LinesOnly.sub {s t : State} (h : LinesOnly s t) (i : SubIdx) : t.sub i = s.sub i := sub_congr h.subs i

theorem LinesOnly.rqt {s t : State} (h : LinesOnly s t) : t.rqt = s.rqt := by rw [h]

theorem mapLines_linesOnly (s : State) (f : Line → Line) : LinesOnly s (s.mapLines f) := rfl

theorem setLine_linesOnly (s : State) (l : LineIdx) (x : Line) : LinesOnly s (s.setLine l x) := rfl

theorem trimLines_linesOnly (s : State) (i : SubIdx) : LinesOnly s (s.trimLines i) := by
  unfold State.trimLines
  dsimp only
  split
  · split <;> rfl
  · rfl

theorem takeSpare_linesOnly (i : SubIdx) (s : State) (g : Seq) : LinesOnly s (State.takeSpare i s g) := by
  unfold State.takeSpare
  split <;> rfl

theorem takeSpares_linesOnly (i : SubIdx) : ∀ (gs : List Seq) (s : State), LinesOnly s (gs.foldl (State.takeSpare i) s)
  | [], s => .refl s
  | g :: gs, s => (takeSpare_linesOnly i s g).trans (takeSpares_linesOnly i gs _)

/-! ### The moves -/

/-- What the fetch decision, a cut and a claim make of a record (R53, R58, R61). -/
inductive SeekSub (b : Sub) : Sub → Prop
  | lineWait (w : Bool) (h : w = true → b.evaluated = true) : SeekSub b { b with lineWait := w }
  | cut (x : Seq) (h : seqUpTo b.pp x = true) : SeekSub b { b with ap := seqMin b.ap x, fp := seqMin b.fp x }
  | ask (x : Seq) (h : b.evaluated = true) : SeekSub b { b with ap := x, fetchesOut := b.fetchesOut + 1 }
  | claim (q : Request) (h : b.evaluated = true) : SeekSub b { b with claims := b.claims ++ [q] }

/-- The record after the start of a pull (R75, R89). -/
def Sub.started (b : Sub) (im : Image) (blocks : List Nat) : Sub :=
  { b with pp := b.pp + 1, pulls := b.pulls ++ [{ image := im, blocks := blocks, issued := 0, arrived := [] }],
           issue := if im.length = 0 then b.issue else some (im.seq, 0) }

/-- What the block grant round makes of the record of a subscription in block wait (R90). -/
inductive SupplySub (b : Sub) : Sub → Prop
  | wake (w : Bool) : SupplySub b { b with blockWait := none, pullWait := w }
  | start (im : Image) (blocks : List Nat) : SupplySub b (({ b with blockWait := none } : Sub).started im blocks)

/-- The sorts of moves. -/
inductive Kind where
  | seek | supply | complete | deliver | depart
  deriving DecidableEq

/-- One move of an engine. -/
inductive Move : Kind → State → State → Prop
  | lines (s : State) (v : Vector Line 48) : Move .seek s { s with dpc := { s.dpc with lines := v } }
  | linePtr (s : State) (i : SubIdx) : Move .seek s { s with dpc := { s.dpc with lineGrantPtr := i } }
  | seek (s : State) (i : SubIdx) (b : Sub) (h : SeekSub (s.sub i) b) : Move .seek s (s.modSub i fun _ => b)
  | grant (s : State) (t : TagIdx) (i : SubIdx) (q : Request) (rest : List Request) (hroom : s.rqt.queue.length < 16)
      (hfree : (s.tag t).bound = none) (hclaims : (s.sub i).claims = q :: rest) : Move .seek s (s.grantTo t i q)
  | retry (s : State) (t : TagIdx) (rest : List TagIdx) (hline : s.rqt.retryLine = t :: rest)
      (hroom : s.rqt.queue.length < 16) :
      Move .seek s { s with rqt := { s.rqt with queue := s.rqt.queue ++ [t], retryLine := rest } }
  | supply (s : State) (i : SubIdx) (b : Sub) (hwait : (s.sub i).blockWait ≠ none) (h : SupplySub (s.sub i) b) :
      Move .supply s (s.modSub i fun _ => b)
  | relines (s : State) (v : Vector Line 48) : Move .supply s { s with dpc := { s.dpc with lines := v } }
  | pool (s : State) (bs : List Block) (p : SubIdx) (h : bs.length = s.pdu.blocks.length) :
      Move .supply s { s with pdu := { s.pdu with blocks := bs, blockGrantPtr := p } }
  | draw (s : State) (n : Nat) : Move .supply s { s with freeIndex := n }
  | complete (s : State) (i : SubIdx) (hstate : (s.sub i).state = .finishing)
      (hfinal : (s.sub i).finalTail = some (s.sub i).dp) : Move .complete s (s.completeFinishing i)
  | deliver (s : State) (i : SubIdx) (h : s.nextDelivery = some i) :
      Move .deliver s ((((s.writeRecord i).mapBlocks (Block.deliver i (s.sub i).dp)).countRecord i).modSub i Sub.delivered)
  | depart (s : State) (i : SubIdx) (hstate : (s.sub i).state = .leaving) (hnone : s.nothingOutstanding i = true) :
      Move .depart s (s.completeLeave i)

/-- A chain of moves of the sorts listed. -/
def Moves (K : List Kind) : State → State → Prop := Relation.ReflTransGen fun s t => ∃ k ∈ K, Move k s t

theorem Moves.refl (K : List Kind) (s : State) : Moves K s s := Relation.ReflTransGen.refl

theorem Moves.trans {K : List Kind} {s t u : State} (h : Moves K s t) (k : Moves K t u) : Moves K s u :=
  Relation.ReflTransGen.trans h k

theorem Move.moves {k : Kind} {s t : State} (h : Move k s t) : Moves [k] s t := .single ⟨k, by simp, h⟩

theorem Moves.mono {K L : List Kind} (h : K ⊆ L) {s t : State} (m : Moves K s t) : Moves L s t := by
  induction m with
  | refl => exact .refl L s
  | tail _ hlast ih =>
    obtain ⟨k, hk, hm⟩ := hlast
    exact ih.tail ⟨k, h hk, hm⟩

/-- What every move of the sorts listed keeps, a chain of them keeps. -/
theorem Moves.keeps {K : List Kind} {inv : State → Prop} (hmove : ∀ k ∈ K, ∀ s t, Move k s t → inv s → inv t) {s t : State}
    (h : Moves K s t) (hs : inv s) : inv t := by
  induction h with
  | refl => exact hs
  | tail _ hlast ih =>
    obtain ⟨k, hk, hm⟩ := hlast
    exact hmove k hk _ _ hm ih

theorem Moves.ite {K : List Kind} {c : Prop} [Decidable c] {s t u : State} (ht : c → Moves K s t) (hu : ¬ c → Moves K s u) :
    Moves K s (if c then t else u) := by split <;> solve_by_elim

theorem Moves.foldl {K : List Kind} {α : Type} {f : State → α → State} (hf : ∀ s x, Moves K s (f s x)) :
    ∀ (l : List α) (s : State), Moves K s (l.foldl f s)
  | [], s => .refl K s
  | x :: l, s => (hf s x).trans (Moves.foldl hf l (f s x))

theorem repeatWhile_moves {K : List Kind} {f : State → Option State} (hf : ∀ s t, f s = some t → Moves K s t) :
    ∀ (n : Nat) (s : State), Moves K s (repeatWhile f n s)
  | 0, s => .refl K s
  | n + 1, s => by
    unfold repeatWhile
    split
    · exact .refl K s
    · rename_i t ht
      exact (hf s t ht).trans (repeatWhile_moves hf n t)

theorem LinesOnly.moves {s t : State} (h : LinesOnly s t) : Moves [.seek] s t := by
  rw [h]; exact (Move.lines s _).moves

/-! ### Moves as elementary changes -/

theorem SeekSub.tame {b c : Sub} (h : SeekSub b c) : Tame b c := by
  cases h with
  | lineWait w h => exact .of_same rfl rfl rfl rfl
  | cut x h => exact .of_same rfl rfl rfl rfl
  | ask x h => exact .of_same rfl rfl rfl rfl
  | claim q h =>
    refine ⟨id, fun _ => .inr ?_, id⟩
    simp only [Sub.evaluated, Bool.and_eq_true, Bool.or_eq_true, beq_iff_eq] at h
    rcases h.1 with e | e <;> rw [e] <;> rfl

theorem SupplySub.tame {b c : Sub} (h : SupplySub b c) : Tame b c := by
  cases h <;> exact .of_same rfl rfl rfl rfl

theorem nextDelivery_eq_some {s : State} {i : SubIdx} (h : s.nextDelivery = some i) :
    s.pdu.fill < s.pdu.capacity ∧ s.deliverable i = true := by
  unfold State.nextDelivery at h
  split at h
  · exact ⟨‹_›, List.find?_some h⟩
  · exact absurd h (by simp)

/-- What the conditions of a delivery say of the record (R96). -/
theorem deliverable_record {s : State} {i : SubIdx} (h : s.deliverable i = true) :
    ((s.sub i).state = .active ∨ (s.sub i).state = .finishing ∨ (s.sub i).state = .leaving) ∧ (s.sub i).unretired < 64 := by
  simp only [State.deliverable, Bool.and_eq_true, Bool.or_eq_true, beq_iff_eq, or_assoc] at h
  exact ⟨h.1.1, of_decide_eq_true h.2⟩

theorem Sub.delivered_tame {b : Sub} (h : b.unretired < 64) : Tame b b.delivered := by
  refine ⟨id, .inl, fun _ => ?_⟩
  unfold Sub.unretired at *
  show (b.dp + 1 - b.rm).toNat ≤ 64
  have : (b.dp + 1 - b.rm).toNat ≤ (b.dp - b.rm).toNat + 1 := by
    rw [show b.dp + 1 - b.rm = (b.dp - b.rm) + 1 by ring, BitVec.toNat_add]
    exact Nat.mod_le _ _
  omega

theorem writeRecord_acts (s : State) (i : SubIdx) : Acts own s (s.writeRecord i) := by
  unfold State.writeRecord
  split
  · exact putBytes_acts _ _ _
  · exact .refl s

theorem writeRecord_eq (s : State) (i : SubIdx) : s.writeRecord i = { s with memory := (s.writeRecord i).memory } := by
  unfold State.writeRecord
  split
  · exact putBytes_eq _ _ _
  · rfl

theorem deliver_acts {s : State} {i : SubIdx} (h : s.nextDelivery = some i) : Acts own s
    ((((s.writeRecord i).mapBlocks (Block.deliver i (s.sub i).dp)).countRecord i).modSub i Sub.delivered) := by
  obtain ⟨hroom, hdue⟩ := nextDelivery_eq_some h
  have hsub : (((s.writeRecord i).mapBlocks (Block.deliver i (s.sub i).dp)).countRecord i).sub i = s.sub i := by
    rw [writeRecord_eq]; rfl
  have hcount : ((s.writeRecord i).mapBlocks (Block.deliver i (s.sub i).dp)).pdu.fill <
      ((s.writeRecord i).mapBlocks (Block.deliver i (s.sub i).dp)).pdu.capacity := by
    rw [writeRecord_eq]; exact hroom
  refine .trans (writeRecord_acts s i) (.trans (mapBlocks_acts _ _) (.trans (Act.count i hcount).acts (modSub_acts _ i _ ?_)))
  rw [hsub]
  exact Sub.delivered_tame (deliverable_record hdue).2

theorem Move.acts {k : Kind} {s t : State} (h : Move k s t) : Acts own s t := by
  cases h with
  | lines s v => exact (Act.cache _).acts
  | linePtr s i => exact (Act.cache _).acts
  | seek s i b h => exact modSub_acts s i _ h.tame
  | grant s t i q rest hroom hfree hclaims => exact grantTo_acts s hroom hclaims
  | retry s t rest hline hroom =>
    exact track_acts s _ (fun _ => by rw [List.length_append]; exact hroom) fun u b hb => ⟨b, hb, rfl⟩
  | supply s i b hwait h => exact modSub_acts s i _ h.tame
  | relines s v => exact (Act.cache _).acts
  | pool s bs p h => exact (Act.pool (s := s) { s.pdu with blocks := bs, blockGrantPtr := p } h rfl rfl rfl rfl).acts
  | draw s n => exact (Act.draw n).acts
  | complete s i hstate hfinal => exact completeFinishing_acts s i
  | deliver s i h => exact deliver_acts h
  | depart s i hstate hnone => exact completeLeave_acts s i hnone

theorem Moves.acts {K : List Kind} {s t : State} (h : Moves K s t) : Acts own s t := by
  induction h with
  | refl => exact .refl s
  | tail _ hlast ih =>
    obtain ⟨k, -, hm⟩ := hlast
    exact ih.trans hm.acts

/-! ### Grants, cuts and the fetch decision -/

theorem nextTag_free {s : State} {t : TagIdx} (h : s.nextTag = some t) : (s.tag t).bound = none :=
  Option.isNone_iff_eq_none.1 (List.find?_some (p := fun u => (s.tag u).bound.isNone) h)

theorem modSub_seek (s : State) (i : SubIdx) (f : Sub → Sub) (h : SeekSub (s.sub i) (f (s.sub i))) :
    Moves [.seek] s (s.modSub i f) := (Move.seek s i _ h).moves

theorem grantOnce_moves (s t : State) (h : grantOnce s = some t) : Moves [.seek] s t := by
  obtain ⟨g, i, q, rest, hroom, -, htag, -, hclaims, rfl⟩ := grantOnce_eq_some h
  exact (Move.grant s g i q rest hroom (nextTag_free htag) hclaims).moves

theorem moveRetryOnce_moves (s t : State) (h : moveRetryOnce s = some t) : Moves [.seek] s t := by
  obtain ⟨g, rest, hline, hroom, rfl⟩ := moveRetryOnce_eq_some h
  exact (Move.retry s g rest hline hroom).moves

theorem runGrants_moves (s : State) : Moves [.seek] s (runGrants s) :=
  (repeatWhile_moves moveRetryOnce_moves _ _).trans (repeatWhile_moves grantOnce_moves _ _)

theorem cutAt_moves (s : State) (i : SubIdx) (x : Seq) : Moves [.seek] s (s.cutAt i x) := by
  unfold State.cutAt
  refine Moves.ite (fun h => ?_) fun _ => .refl _ s
  refine Moves.trans ?_ (trimLines_linesOnly _ i).moves
  exact Moves.trans (mapLines_linesOnly s _).moves (modSub_seek (s.mapEntries i _) i _ (.cut x h))

theorem cutAt_sub (s : State) (i : SubIdx) (x : Seq) : (s.cutAt i x).subs =
    (if seqUpTo (s.sub i).pp x then s.modSub i fun b => { b with ap := seqMin b.ap x, fp := seqMin b.fp x } else s).subs := by
  unfold State.cutAt
  split
  · exact (trimLines_linesOnly _ i).subs
  · rfl

theorem evaluated_cutAt (s : State) (v : SubIdx) (x : Seq) (i : SubIdx) :
    ((s.cutAt v x).sub i).evaluated = (s.sub i).evaluated := by
  rw [sub_congr (cutAt_sub s v x)]
  split
  · by_cases e : v = i
    · subst e; rw [sub_modSub_self]; rfl
    · rw [sub_modSub_ne s _ e]
  · rfl

theorem borrow_moves (s : State) (i v : SubIdx) (g : Seq) : Moves [.seek] s (s.borrow i v g) := by
  unfold State.borrow
  split
  · exact .trans (setLine_linesOnly s _ _).moves (cutAt_moves _ _ _)
  · exact .refl _ s

theorem evaluated_borrow (s : State) (j v : SubIdx) (g : Seq) (i : SubIdx) :
    ((s.borrow j v g).sub i).evaluated = (s.sub i).evaluated := by
  unfold State.borrow
  split
  · rw [evaluated_cutAt]; rfl
  · rfl

theorem issueFetch_moves (s : State) (i : SubIdx) (c : Cover) (h : (s.sub i).evaluated = true) :
    Moves [.seek] s (s.issueFetch i c) := by
  have hlines := takeSpares_linesOnly i (c.groups.take c.spare) s
  have hspare : (((c.groups.take c.spare).foldl (State.takeSpare i) s).sub i).evaluated = true := by rwa [hlines.sub]
  unfold State.issueFetch
  dsimp only
  refine hlines.moves.trans ?_
  have ask (u : State) (hu : (u.sub i).evaluated = true) (f : Seq → Entry → Entry) (x : Seq) (q : State → Request) :
      Moves [.seek] u (((u.mapEntries i f).modSub i fun b => { b with ap := x, fetchesOut := b.fetchesOut + 1 }).claim i
        (q ((u.mapEntries i f).modSub i fun b => { b with ap := x, fetchesOut := b.fetchesOut + 1 }))) := by
    have hasked := Moves.trans (mapLines_linesOnly u _).moves (modSub_seek (u.mapEntries i f) i
      (fun b => { b with ap := x, fetchesOut := b.fetchesOut + 1 }) (.ask x hu))
    refine hasked.trans (Moves.trans (modSub_seek _ i _ (.claim _ ?_)) (runGrants_moves _))
    rw [sub_modSub_self]
    exact hu
  split
  · refine (borrow_moves _ _ _ _).trans (ask _ ?_ _ _ fun u => .fetch _ _ (u.sub i).generation)
    rw [evaluated_borrow]
    exact hspare
  · exact ask _ hspare _ _ fun u => .fetch _ _ (u.sub i).generation

theorem evaluateOnce_moves (s : State) (i : SubIdx) : Moves [.seek] s (s.evaluateOnce i).state := by
  have hclear : Moves [.seek] s (s.modSub i fun b => { b with lineWait := false }) :=
    (Move.seek s i _ (.lineWait false fun h => by simp at h)).moves
  unfold State.evaluateOnce
  dsimp only
  split
  · rename_i hev
    split
    · exact hclear.trans (issueFetch_moves _ i _ hev)
    · split
      · exact hclear.trans (Move.seek _ i _ (.lineWait true fun _ => hev)).moves
      · exact hclear
  · exact hclear

theorem evaluations_moves : ∀ (n : Nat) (is : List SubIdx) (s : State), Moves [.seek] s (evaluations n is s)
  | 0, _, s => .refl _ s
  | _ + 1, [], s => .refl _ s
  | n + 1, i :: rest, s => by
    have h := evaluateOnce_moves s i
    unfold evaluations
    split
    · rename_i t e
      rw [e] at h
      exact h.trans (evaluations_moves n _ t)
    · rename_i t c e
      rw [e] at h
      exact h.trans (evaluations_moves n _ t)

theorem evaluate_moves (s : State) (is : List SubIdx) : Moves [.seek] s (s.evaluate is) := evaluations_moves _ _ _

theorem evaluateChanged_moves (s : State) (i : SubIdx) (b : Sub) : Moves [.seek] s (s.evaluateChanged i b) :=
  Moves.ite (fun _ => .refl _ s) fun _ => evaluate_moves _ _

theorem lineWaitTurn_moves (s : State) (i : SubIdx) : Moves [.seek] s (lineWaitTurn s i) := by
  have h := evaluateOnce_moves s i
  unfold lineWaitTurn
  split
  · split
    · rename_i t e
      rwa [e] at h
    · rename_i t c e
      rw [e] at h
      refine h.trans (Moves.trans (Moves.ite (fun _ => (Move.linePtr t i).moves) fun _ => .refl _ t) (evaluations_moves _ _ _))
  · exact .refl _ s

theorem lineWaitRound_moves (s : State) : Moves [.seek] s (lineWaitRound s) := Moves.foldl lineWaitTurn_moves _ s

/-! ### The block grant round, completions, deliveries -/

theorem takeBlocks_length (i : SubIdx) (q : Seq) : ∀ (need index number : Nat) (bs : List Block),
    (takeBlocks i q need index number bs).1.length = bs.length
  | _, _, _, [] => by simp [takeBlocks]
  | 0, _, _, _ :: _ => by simp [takeBlocks]
  | need + 1, index, number, .free :: bs => by simp [takeBlocks, takeBlocks_length i q need (index + 1) (number + 1) bs]
  | need + 1, index, number, .filling _ _ _ :: bs => by
    simp [takeBlocks, takeBlocks_length i q (need + 1) index (number + 1) bs]
  | need + 1, index, number, .delivered _ _ _ :: bs => by
    simp [takeBlocks, takeBlocks_length i q (need + 1) index (number + 1) bs]

theorem modSub_modSub (s : State) (i : SubIdx) (f g : Sub → Sub) :
    (s.modSub i f).modSub i g = s.modSub i fun b => g (f b) := by
  simp only [State.modSub, State.sub, Vector.get_eq_getElem, Vector.getElem_set_self, Vector.set_set]

theorem startPull_eq (s : State) (i : SubIdx) (im : Image) (blocks : List Nat) : s.startPull i im blocks =
    (s.setEntry i im.seq (if im.length = 0 then .complete im else .pulling im)).modSub i fun b => b.started im blocks := rfl

/-- DPC's fresh answer to a start that it did not take (R73, R90): pull wait is set, or stays. -/
theorem noteAnswer_eq (s : State) (i : SubIdx) :
    ∃ w, s.noteAnswer i = s.modSub i fun b => { b with pullWait := w } := by
  have hsame : s = s.modSub i fun b => { b with pullWait := (s.sub i).pullWait } := by
    show s = { s with subs := s.subs.set i (s.sub i) }
    simp [State.sub, Vector.get_eq_getElem]
  unfold State.noteAnswer
  split
  · exact ⟨_, hsame⟩
  · exact ⟨true, rfl⟩
  · split
    · exact ⟨true, rfl⟩
    · exact ⟨_, hsame⟩

theorem startGranted_grantBlocks (s : State) (i : SubIdx) (q : Seq) (need : Nat) (im : Image) (got : List Nat) :
    (s.grantBlocks i q need).startGranted i im got =
      { (({ (s.allocate i q need) with pdu := { (s.allocate i q need).pdu with blockGrantPtr := i } } : State).setEntry i im.seq
          (if im.length = 0 then .complete im else .pulling im)).modSub i
          (fun b => ({ b with blockWait := none } : Sub).started im ((s.grantBlocks i q need).padBlocks got im)) with
        freeIndex := s.freeIndex + (chunkCount im.length.toNat - got.length) } := by
  simp only [State.startGranted, startPull_eq, State.grantBlocks, State.modSub, State.setEntry, State.mapLines, State.sub,
    Vector.get_eq_getElem, Vector.getElem_set_self, Vector.set_set]
  rfl

/-- A start that DPC does not take: the blocks return, the wait ends, and pull wait follows the fresh answer (R90). -/
theorem returned_grantBlocks (s : State) (i : SubIdx) (q : Seq) (need : Nat) (p : Seq → Bool) :
    ∃ w, ((s.grantBlocks i q need).discardBlocks i p).noteAnswer i =
      ({ (s.allocate i q need).discardBlocks i p with
          pdu := { ((s.allocate i q need).discardBlocks i p).pdu with blockGrantPtr := i } } : State).modSub i
        fun b => { b with blockWait := none, pullWait := w } := by
  obtain ⟨w, hw⟩ := noteAnswer_eq ((s.grantBlocks i q need).discardBlocks i p) i
  refine ⟨w, hw.trans ?_⟩
  simp only [State.grantBlocks, State.modSub, State.discardBlocks, State.mapBlocks, State.sub, Vector.get_eq_getElem,
    Vector.getElem_set_self, Vector.set_set]

theorem modSub_supply (s : State) (i : SubIdx) (f : Sub → Sub) (hwait : (s.sub i).blockWait ≠ none)
    (h : SupplySub (s.sub i) (f (s.sub i))) : Moves [.supply] s (s.modSub i f) := (Move.supply s i _ hwait h).moves

theorem setEntry_supply (s : State) (i : SubIdx) (q : Seq) (e : Entry) : Moves [.supply] s (s.setEntry i q e) :=
  (Move.relines s _).moves

theorem blockGrantTurn_moves (s : State) (i : SubIdx) : Moves [.supply] s (blockGrantTurn s i) := by
  unfold blockGrantTurn
  split
  · exact .refl _ s
  · rename_i q need hwait
    have hne : (s.sub i).blockWait ≠ none := by rw [hwait]; simp
    have htaken := takeBlocks_length i q need 0 0 s.pdu.blocks
    refine Moves.ite (fun _ => ?_) fun _ => .refl _ s
    unfold State.presentStart
    split
    · rw [startGranted_grantBlocks]
      refine (Move.pool s _ i htaken).moves.trans (Moves.trans ?_ (Move.draw _ _).moves)
      exact Moves.trans (setEntry_supply _ _ _ _) (modSub_supply (State.setEntry _ _ _ _) i _ hne (.start _ _))
    · obtain ⟨w, hw⟩ := returned_grantBlocks s i q need (· == q)
      rw [hw]
      refine (Move.pool s _ i ?_).moves.trans (modSub_supply (State.mk ..) i _ hne (.wake w))
      exact (List.length_map _).trans htaken

theorem blockGrantRound_moves (s : State) : Moves [.supply] s (blockGrantRound s) := Moves.foldl blockGrantTurn_moves _ s

/-- The sorts of moves that freed tags, blocks and lines lead to. -/
abbrev Kind.handing : List Kind := [.seek, .supply]

/-- The sorts of moves that an event leads to but for the completion of a leave. -/
abbrev Kind.settling : List Kind := [.seek, .supply, .complete, .deliver]

/-- The sorts of all moves. -/
abbrev Kind.all : List Kind := [.seek, .supply, .complete, .deliver, .depart]

theorem handOn_moves (s : State) : Moves Kind.handing s (handOn s) :=
  .trans ((runGrants_moves s).mono (by decide)) (.trans ((blockGrantRound_moves _).mono (by decide))
    ((lineWaitRound_moves _).mono (by decide)))

theorem finishingTest_moves (s : State) (i : SubIdx) : Moves [.seek, .supply, .complete] s (s.finishingTest i) := by
  unfold State.finishingTest
  refine Moves.ite (fun h => ?_) fun _ => .refl _ s
  simp only [Bool.and_eq_true, beq_iff_eq] at h
  obtain ⟨⟨hstate, hfinal⟩, -⟩ := h
  exact .trans ((Move.complete s i hstate hfinal).moves.mono (by decide)) ((handOn_moves _).mono (by decide))

theorem deliverFor_moves (s : State) (i : SubIdx) (h : s.nextDelivery = some i) :
    Moves [.seek, .deliver] s (s.deliverFor i) :=
  .trans ((Move.deliver s i h).moves.mono (by decide))
    (.trans ((Move.lines _ _).moves.mono (by decide)) ((trimLines_linesOnly _ i).moves.mono (by decide)))

theorem deliverOnce_moves (s t : State) (h : deliverOnce s = some t) : Moves Kind.settling s t := by
  unfold deliverOnce at h
  split at h
  · exact absurd h (by simp)
  · rename_i i hi
    obtain rfl := Option.some.inj h
    exact .trans ((deliverFor_moves s i hi).mono (by decide)) (.trans ((lineWaitRound_moves _).mono (by decide))
      (.trans ((evaluate_moves _ _).mono (by decide)) ((finishingTest_moves _ i).mono (by decide))))

theorem deliverAll_moves (s : State) : Moves Kind.settling s (deliverAll s) := repeatWhile_moves deliverOnce_moves _ s

theorem settle_moves (s : State) : Moves Kind.settling s (settle s) :=
  .trans ((handOn_moves s).mono (by decide)) (deliverAll_moves _)

theorem leaveTest_moves (s : State) (i : SubIdx) : Moves Kind.all s (s.leaveTest i) := by
  unfold State.leaveTest
  refine Moves.ite (fun h => ?_) fun _ => .refl _ s
  simp only [Bool.and_eq_true, beq_iff_eq] at h
  obtain ⟨hstate, hnone⟩ := h
  exact .trans ((Move.depart s i hstate hnone).moves.mono (by decide)) ((settle_moves _).mono (by decide))

end Sys2Proof.Machine
end

section
/-! PROOFS. Every command but a reset, its release and the completion of a START is a chain of elementary changes
(`exec_acts`): one lemma per operation, in the order of the model. -/
namespace Sys2Proof.Machine

variable {own : Bool}

/-! ### Claims, flushes and ends of subscriptions -/

theorem runGrants_acts (s : State) : Acts own s (runGrants s) := (runGrants_moves s).acts

theorem claim_acts (s : State) (i : SubIdx) (q : Request) (h : (s.sub i).state.live = true) : Acts own s (s.claim i q) :=
  (modSub_acts s i _ ⟨id, fun _ => .inr h, id⟩).trans (runGrants_acts _)

theorem cutAt_acts (s : State) (i : SubIdx) (x : Seq) : Acts own s (s.cutAt i x) := (cutAt_moves s i x).acts

theorem settle_acts (s : State) : Acts own s (settle s) := (settle_moves s).acts

/-- A change of fields that neither state, claims, RM nor DP are among. -/
theorem modSub_acts_of_same (s : State) (i : SubIdx) (f : Sub → Sub)
    (h : ∀ b, (f b).state = b.state ∧ (f b).claims = b.claims ∧ (f b).rm = b.rm ∧ (f b).dp = b.dp := by
      exact fun _ => ⟨rfl, rfl, rfl, rfl⟩) : Acts own s (s.modSub i f) := by
  obtain ⟨hstate, hclaims, hrm, hdp⟩ := h (s.sub i)
  exact modSub_acts s i f (.of_same hstate hclaims hrm hdp)

theorem postFlushAll_acts (s : State) : Acts own s s.postFlushAll :=
  .tail (Act.post _).acts (Act.cache { (s.post _).dpc with flushAdded := [], flushEnded := false })

theorem leaveFlushAll_acts (s : State) (i : SubIdx) : Acts own s (s.leaveFlushAll i) := by
  have hleave : Acts own s (s.modSub i fun b => { b with inFlushAll := false }) :=
    modSub_acts_of_same s i _
  exact Acts.ite (fun _ => hleave.trans (Acts.ite (fun _ => postFlushAll_acts _) fun _ => .refl _)) fun _ => .refl s

theorem payFlushNotice_acts (s : State) (i : SubIdx) (b : Byte) : Acts own s (s.payFlushNotice i b) :=
  Acts.ite (fun _ => .trans (modSub_acts_of_same s i _)
    (postSub_acts _ _ _ _ _)) fun _ => .refl s

theorem flushTest_acts (s : State) (i : SubIdx) : Acts own s (s.flushTest i) :=
  Acts.ite (fun _ => .trans (modSub_acts_of_same s i _)
    (.trans (payFlushNotice_acts _ _ _) (leaveFlushAll_acts _ _))) fun _ => .refl s

theorem settleFlush_acts (s : State) (i : SubIdx) (w : Bool) : Acts own s (s.settleFlush i w) :=
  Acts.ite (fun _ => (payFlushNotice_acts s i 1).trans (Acts.ite
    (fun _ => .trans (Act.cache { (s.payFlushNotice i 1).dpc with flushEnded := true }).acts (leaveFlushAll_acts _ _))
    fun _ => .refl _)) fun _ => .refl s

/-- A change that drops claims at most, and keeps state, RM and DP. -/
theorem Tame.of_fewer_claims {b c : Sub} (hstate : c.state = b.state) (hclaims : c.claims ≠ [] → b.claims ≠ [])
    (hrm : c.rm = b.rm) (hdp : c.dp = b.dp) : Tame b c :=
  ⟨fun h => hstate ▸ h, fun h => .inl (hclaims h), fun h => by rwa [Sub.unretired, hrm, hdp]⟩

theorem filter_ne_nil {α : Type} {p : α → Bool} {l : List α} (h : l.filter p ≠ []) : l ≠ [] := by
  rintro rfl
  exact h rfl

theorem flushSub_acts (s : State) (i : SubIdx) (alone : Bool) : Acts own s (s.flushSub i alone) := by
  unfold State.flushSub
  refine .trans (.trans (modSub_acts s i _ ?_) (cutAt_acts _ _ _)) (modSub_acts_of_same _ i _)
  exact .of_fewer_claims rfl filter_ne_nil rfl rfl

theorem forcedEnd_acts (s : State) (i : SubIdx) (e : EndReason) : Acts own s (s.forcedEnd i e) := by
  unfold State.forcedEnd
  refine .trans (cancelRequests_acts s i) (.trans (discardBlocks_acts _ i _) (.trans (releaseLines_acts _ i)
    (.trans (ended_acts _ i _ _ ?_) (.trans (postSub_acts _ _ _ _ _) (settleFlush_acts _ _ _)))))
  exact (nothingOutstanding_congr (s := s.cancelRequests i) rfl rfl i).trans (nothingOutstanding_cancelRequests s i)

theorem endNow_acts (s : State) (i : SubIdx) (e : EndReason) : Acts own s (s.endNow i e) :=
  (forcedEnd_acts s i e).trans (settle_acts _)

theorem leaveTest_acts (s : State) (i : SubIdx) : Acts own s (s.leaveTest i) := (leaveTest_moves s i).acts

theorem finishingTest_acts (s : State) (i : SubIdx) : Acts own s (s.finishingTest i) := (finishingTest_moves s i).acts

theorem evaluate_acts (s : State) (is : List SubIdx) : Acts own s (s.evaluate is) := (evaluate_moves s is).acts

theorem lineWaitRound_acts (s : State) : Acts own s (lineWaitRound s) := (lineWaitRound_moves s).acts

theorem blockGrantRound_acts (s : State) : Acts own s (blockGrantRound s) := (blockGrantRound_moves s).acts

theorem deliverAll_acts (s : State) : Acts own s (deliverAll s) := (deliverAll_moves s).acts

theorem abandonPull_acts (s : State) (i : SubIdx) (q : Seq) : Acts own s (s.abandonPull i q) :=
  Acts.ite (fun _ => .trans (discardBlocks_acts s i _) (.trans (mapLines_acts _ _)
    (.trans (modSub_acts_of_same _ i _) (trimLines_acts _ i))))
    fun _ => .refl s

/-! ### The known tail, replies -/

theorem applyTail_acts (s : State) (i : SubIdx) (t : Seq) (r : Half) : Acts own s (s.applyTail i t r) :=
  Acts.ite (fun _ => Acts.ite
    (fun _ => modSub_acts_of_same s i _)
    fun _ => Acts.ite
      (fun _ => .trans (modSub_acts_of_same s i _)
        (Acts.ite (fun _ => cutAt_acts _ _ _) fun _ => .refl _))
      fun _ => .refl s) fun _ => .refl s

theorem enterFinishing_acts (s : State) (i : SubIdx) (t : Seq) (r : Half) : Acts own s (s.enterFinishing i t r) :=
  .trans (modSub_acts s i _ ⟨fun _ => rfl, .inl, id⟩)
    (.trans (Acts.ite (fun _ => cutAt_acts _ _ _) fun _ => .refl _) (postSub_acts _ _ _ _ _))

theorem restartPoll_acts (s : State) (i : SubIdx) : Acts own s (s.restartPoll i) :=
  modSub_acts_of_same s i _

theorem takeTail_acts (s : State) (i : SubIdx) (t : TailBlock) : Acts own s (s.takeTail i t) :=
  .trans (applyTail_acts s i t.tail t.revision) (Acts.ite (fun _ => .trans (restartPoll_acts _ i)
    (Acts.ite (fun _ => enterFinishing_acts _ _ _ _) fun _ => .refl _)) fun _ => .refl _)

theorem takeAnnounce_acts (s : State) (i : SubIdx) (t : TailBlock) : Acts own s (s.takeAnnounce i t) :=
  .trans (takeTail_acts s i t) (.trans (lineWaitRound_acts _)
    (.trans (evaluateChanged_moves _ _ _).acts (finishingTest_acts _ i)))

theorem endFetch_acts (s : State) (i : SubIdx) : Acts own s (s.endFetch i) :=
  modSub_acts_of_same s i _

theorem endPull_acts (s : State) (i : SubIdx) : Acts own s (s.endPull i) :=
  modSub_acts_of_same s i _

theorem takeWelcome_acts (s : State) (i : SubIdx) (h : Header) (t : TailBlock) : Acts own s (s.takeWelcome i h t) := by
  have hlive : ((s.sub i).welcome h t s.config).state.live = true := by
    unfold Sub.welcome
    dsimp only
    split <;> rfl
  refine .trans (modSub_acts s i _ ⟨fun _ => hlive, fun _ => .inr hlive, fun _ => ?_⟩) (.trans (mapLines_acts _ _)
    (.trans (postSub_acts _ _ _ _ _) (.trans (Acts.ite (fun _ => postSub_acts _ _ _ _ _) fun _ => .refl _)
      (.trans (runGrants_acts _) (.trans (evaluate_acts _ _) (finishingTest_acts _ i))))))
  simp [Sub.unretired, Sub.welcome]

theorem takeLateWelcome_acts (s : State) (i : SubIdx) (h : Header) : Acts own s (s.takeLateWelcome i h) :=
  .trans (modSub_acts_of_same s i _)
    (.trans (settle_acts _) (leaveTest_acts _ i))

theorem takeJoinRefusal_acts (s : State) (i : SubIdx) (h : Header) : Acts own s (s.takeJoinRefusal i h) := by
  unfold State.takeJoinRefusal
  split
  · exact endNow_acts _ _ _
  · exact .trans (settle_acts _) (leaveTest_acts _ i)
  · exact runGrants_acts s

theorem acceptImage_acts (i : SubIdx) (first : Seq) (n : Nat) (s : State) (im : Image) :
    Acts own s (acceptImage i first n s im) := Acts.ite (fun _ => setEntry_acts _ _ _ _) fun _ => .refl s

theorem advanceFill_acts (s : State) (i : SubIdx) : Acts own s (s.advanceFill i) := by
  unfold State.advanceFill
  exact modSub_acts_of_same s i _

theorem takeListing_acts (s : State) (i : SubIdx) (first : Seq) (n : Nat) (a : Arrival) :
    Acts own s (s.takeListing i first n a) :=
  .trans (Acts.foldl (acceptImage_acts i first n) _ s) (.trans (Acts.ite (fun _ => cutAt_acts _ _ _) fun _ => .refl _)
    (.trans (advanceFill_acts _ i) (takeTail_acts _ i _)))

theorem finishFetch_acts (s : State) (i : SubIdx) : Acts own s (s.finishFetch i) :=
  .trans (endFetch_acts s i) (.trans (flushTest_acts _ i) (.trans (runGrants_acts _) (.trans (lineWaitRound_acts _)
    (.trans (evaluate_acts _ _) (.trans (finishingTest_acts _ i) (leaveTest_acts _ i))))))

theorem writeChunk_acts (s : State) (i : SubIdx) (p : PullRecord) (chunk block : Nat) (body : List Byte) :
    Acts own s (s.writeChunk i p chunk block body) :=
  .trans (putBytes_acts s _ _) (.trans (modSub_acts_of_same _ i _)
    (Acts.ite (fun _ => setEntry_acts _ _ _ _) fun _ => .refl _))

theorem takePayload_acts (s : State) (i : SubIdx) (q : Seq) (chunk length block : Nat) (body : List Byte) :
    Acts own s (s.takePayload i q chunk length block body) := by
  refine Acts.ite (fun _ => Acts.ite (fun _ => abandonPull_acts _ _ _) fun _ => forcedEnd_acts _ _ _) fun _ => ?_
  split
  · exact writeChunk_acts _ _ _ _ _ _
  · exact .refl s

/-! ### Rings and the command slot's registers -/

/-- A change of LPC that keeps the configuration and the notice queue. -/
theorem port_acts (s : State) (l : Lpc) (hconfig : l.config = s.lpc.config) (hnotices : l.notices = s.lpc.notices)
    (hlost : l.lost = s.lpc.lost) (hdropped : l.dropped = s.lpc.dropped) (hstate : l.state = s.lpc.state) :
    Acts true s { s with lpc := l } :=
  (Act.port l rfl hconfig hnotices hlost hdropped hstate).acts

/-- A change of what the command slot holds, and of the count of free values. -/
theorem slot_acts (s : State) (v : SlotState) (n : Nat) :
    Acts true s { s with lpc := { s.lpc with slot := v }, freeIndex := n } :=
  .trans (port_acts s { s.lpc with slot := v } rfl rfl rfl rfl rfl) (Act.draw n).acts

theorem progressValidation_acts (s : State) : Acts true s (progressValidation s) := by
  unfold progressValidation
  split
  · exact slot_acts s _ _
  · exact .refl s

theorem closeRing_acts (s : State) (r : RingIdx) (reason : Byte) : Acts true s (s.closeRing r reason) :=
  .trans (progressValidation_acts s) (.trans (modRing_acts _ r _) (postRing_acts _ _ _ _ _))

theorem removeMember_acts (s : State) (r : RingIdx) (h : Station) (k : NoticeKind) (reason : Byte) :
    Acts true s (s.removeMember r h k reason) :=
  .trans (modRing_acts s r _) (.trans (postRing_acts _ _ _ _ _) (Acts.ite (fun _ => closeRing_acts _ _ _) fun _ => .refl _))

theorem compareRoster_acts (s : State) (r : RingIdx) (h : Station) (inc : Half) : Acts true s (s.compareRoster r h inc).1 := by
  unfold State.compareRoster
  split
  · exact .refl s
  · split
    · exact .refl s
    · exact removeMember_acts _ _ _ _ _

theorem refuse_acts (s : State) (c : ResultCode) : Acts true s (s.refuse c) := finish_acts s c 0 0

theorem takeOpen_acts (ring base count retain : Word) (s : State) : Acts true s (takeOpen ring base count retain s) := by
  unfold takeOpen
  split
  · exact refuse_acts s _
  · refine Acts.ite (fun _ => refuse_acts s _) fun _ => ?_
    split
    · exact refuse_acts s _
    · exact .trans (modRing_acts s _ _) (finish_acts _ _ _ _)

theorem takeAdvance_acts (ring n : Word) (s : State) : Acts true s (takeAdvance ring n s) := by
  unfold takeAdvance
  split
  · exact refuse_acts s _
  · exact Acts.ite (fun _ => refuse_acts s _) fun _ => Acts.ite (fun _ => refuse_acts s _) fun _ =>
      Acts.ite (fun _ => finish_acts s _ _ _) fun _ => slot_acts s _ s.freeIndex

theorem completeAdvance_acts (s : State) : Acts true s (completeAdvance s) := by
  unfold completeAdvance
  split
  · split
    · exact finish_acts s _ _ _
    · exact .trans (Acts.foldl (fun s q => putBytes_acts s _ _) _ s) (.trans (modRing_acts _ _ _) (finish_acts _ _ _ _))
  · exact .refl s

theorem takeRetract_acts (ring t : Word) (s : State) : Acts true s (takeRetract ring t s) := by
  unfold takeRetract
  split
  · exact refuse_acts s _
  · exact Acts.ite (fun _ => refuse_acts s _) fun _ => Acts.ite (fun _ => refuse_acts s _) fun _ =>
      Acts.ite (fun _ => finish_acts s _ _ _) fun _ => Acts.ite (fun _ => finish_acts s _ _ _) fun _ =>
        .trans (modRing_acts s _ _) (finish_acts _ _ _ _)

theorem takeWithdraw_acts (ring drain : Word) (s : State) : Acts true s (takeWithdraw ring drain s) := by
  unfold takeWithdraw
  split
  · exact refuse_acts s _
  · exact Acts.ite (fun _ => refuse_acts s _) fun _ => Acts.ite (fun _ => refuse_acts s _) fun _ =>
      .trans (modRing_acts s _ _) (.trans (finish_acts _ _ _ _)
        (Acts.ite (fun _ => closeRing_acts _ _ _) fun _ => modRing_acts _ _ _))

theorem takeRingStatus_acts (ring view : Word) (s : State) : Acts true s (takeRingStatus ring view s) := by
  unfold takeRingStatus
  split
  · exact refuse_acts s _
  · split
    · exact finish_acts s _ _ _
    · exact refuse_acts s _

/-! ### The subscription commands -/

theorem reserveLine_linesOnly (s : State) (i : SubIdx) : LinesOnly s (s.reserveLine i) := by
  unfold State.reserveLine
  split <;> rfl

/-- What a JOIN that passes its checks does (R28). -/
theorem joinTaken_acts (s : State) (i : SubIdx) (p : Station) (r : RingIdx) (newest : Bool) (depth window : Nat) (w : Word) :
    Acts true s ((((s.modSub i fun b => b.joining p r newest depth window).reserveLine i).finish .ok w 0).claim i
      (.join newest)) := by
  have hline := reserveLine_linesOnly (s.modSub i fun b => b.joining p r newest depth window) i
  have hsub := hline.sub i
  rw [sub_modSub_self] at hsub
  have htame : Tame (s.sub i) ((s.sub i).joining p r newest depth window) :=
    ⟨fun _ => rfl, fun h => absurd rfl h, fun _ => by simp [Sub.unretired, Sub.joining, Sub.fresh]⟩
  refine .trans (modSub_acts s i _ htame) (.trans hline.moves.acts (.trans (finish_acts _ _ _ _) (claim_acts _ i _ ?_)))
  rw [sub_congr (finish_subs _ _ _ _), hsub]
  rfl

theorem takeJoin_acts (w0 w1 w2 w3 : Word) (s : State) : Acts true s (takeJoin w0 w1 w2 w3 s) := by
  unfold takeJoin
  split
  · dsimp only
    split
    · exact refuse_acts s _
    · split
      · exact finish_acts s _ _ _
      · split
        · exact refuse_acts s _
        · exact joinTaken_acts s _ _ _ _ _ _ _
  · exact refuse_acts s _

theorem enterLeaving_acts (s : State) (i : SubIdx) : Acts own s (s.enterLeaving i) := by
  unfold State.enterLeaving
  split
  · exact modSub_acts s i _ ⟨fun _ => rfl, .inl, id⟩
  · refine .trans (.trans (cutAt_acts s i _) (modSub_acts _ i _ ?_)) (flushTest_acts _ i)
    exact ⟨fun _ => rfl, fun h => .inl (filter_ne_nil h), id⟩

theorem takeLeave_acts (w0 : Word) (s : State) : Acts true s (takeLeave w0 s) := by
  have hleave (i : SubIdx) : Acts true s ((settle ((s.finish .ok 0 0).enterLeaving i)).leaveTest i) :=
    .trans (finish_acts s _ _ _) (.trans (enterLeaving_acts _ _) (.trans (settle_acts _) (leaveTest_acts _ _)))
  unfold takeLeave
  split
  · exact refuse_acts s _
  · split
    · exact hleave _
    · exact hleave _
    · exact hleave _
    · exact refuse_acts s _

theorem takeFlushOne_acts (w0 : Word) (s : State) : Acts true s (takeFlushOne w0 s) := by
  unfold takeFlushOne
  split
  · exact refuse_acts s _
  · exact Acts.ite (fun _ => .trans (finish_acts s _ _ _) (.trans (flushSub_acts _ _ _) (.trans (flushTest_acts _ _)
      (.trans (lineWaitRound_acts _) (.trans (evaluate_acts _ _) (finishingTest_acts _ _)))))) fun _ => refuse_acts s _

theorem addToFlushAll_acts (s : State) (i : SubIdx) : Acts own s (addToFlushAll s i) :=
  .trans (Acts.ite (fun _ => .refl s) fun _ => (Act.cache { s.dpc with flushAdded := s.dpc.flushAdded ++ [i] }).acts)
    (modSub_acts_of_same _ i _)

theorem takeFlushAll_acts (s : State) : Acts true s (takeFlushAll s) :=
  .trans (finish_acts s _ _ _) (.trans (Acts.foldl addToFlushAll_acts _ _)
    (.trans (Acts.ite (fun _ => postFlushAll_acts _) fun _ => .refl _)
      (.trans (Acts.foldl (fun s i => (flushSub_acts s i false).trans (flushTest_acts _ i)) _ _)
        (.trans (lineWaitRound_acts _) (.trans (evaluate_acts _ _) (Acts.foldl finishingTest_acts _ _))))))

theorem takeFlush_acts (w0 : Word) (s : State) : Acts true s (takeFlush w0 s) :=
  Acts.ite (fun _ => takeFlushAll_acts s) fun _ => takeFlushOne_acts w0 s

theorem takeDismiss_acts (w0 : Word) (s : State) : Acts true s (takeDismiss w0 s) := by
  unfold takeDismiss
  split
  · exact refuse_acts s _
  · refine Acts.ite (fun _ => refuse_acts s _) fun hended => Acts.ite (fun _ => finish_acts s _ _ _) fun _ =>
      .trans (modSub_acts s _ _ ⟨fun hlive => ?_, fun h => absurd rfl h, fun _ => by simp [Sub.unretired, Sub.fresh]⟩)
        (finish_acts _ _ _ _)
    rw [not_not.1 hended] at hlive
    exact absurd hlive (by decide)

theorem takeSubStatus_acts (w0 view : Word) (s : State) : Acts true s (takeSubStatus w0 view s) := by
  unfold takeSubStatus
  split
  · exact refuse_acts s _
  · split
    · exact finish_acts s _ _ _
    · exact refuse_acts s _

theorem takeAccept_acts (k : Word) (s : State) : Acts true s (takeAccept k s) :=
  Acts.ite (fun _ => refuse_acts s _) fun h =>
    .trans (Act.accept k.toNat (Nat.le_of_not_lt h)).acts (.trans (finish_acts _ _ _ _) (deliverAll_acts _))

theorem batchTest_acts (s : State) (i : SubIdx) : Acts own s (s.batchTest i) :=
  Acts.ite (fun _ => modSub_acts_of_same s i _) fun _ => .refl s

/-- Retiring the record at RM, which is not DP, leaves one fewer unretired. -/
theorem unretired_retire {b : Sub} (h : b.rm ≠ b.dp) : (b.dp - (b.rm + 1)).toNat ≤ (b.dp - b.rm).toNat := by
  bv_omega

theorem takeRetire_acts (w0 seq : Word) (s : State) : Acts true s (takeRetire w0 seq s) := by
  unfold takeRetire
  split
  · exact refuse_acts s _
  · rename_i i _
    refine Acts.ite (fun _ => refuse_acts s _) fun _ => Acts.ite (fun _ => finish_acts s _ _ _) fun h =>
      .trans (mapBlocks_acts s _) (.trans (modSub_acts _ i _ ⟨id, .inl, fun hle => ?_⟩) (.trans (finish_acts _ _ _ _)
        (.trans (blockGrantRound_acts _) (.trans (deliverAll_acts _) (batchTest_acts _ i)))))
    exact (unretired_retire (not_or.1 h).2).trans hle

/-! ### The local port -/

theorem takeStart_acts (s : State) : Acts true s (takeStart s) :=
  Acts.ite (fun _ => refuse_acts s _) fun _ => slot_acts s _ s.freeIndex

theorem takeCommand_acts (s : State) : Acts true s s.takeCommand := by
  unfold State.takeCommand
  split
  · exact takeStart_acts s
  · exact takeOpen_acts _ _ _ _ s
  · exact takeAdvance_acts _ _ s
  · exact takeRetract_acts _ _ s
  · exact takeWithdraw_acts _ _ s
  · exact takeRingStatus_acts _ _ s
  · exact takeJoin_acts _ _ _ _ s
  · exact takeLeave_acts _ s
  · exact takeFlush_acts _ s
  · exact takeDismiss_acts _ s
  · exact takeSubStatus_acts _ _ s
  · exact takeAccept_acts _ s
  · exact takeRetire_acts _ _ s
  · exact refuse_acts s _

theorem goWrite_acts (s : State) : Acts true s s.goWrite :=
  Acts.ite (fun _ => .refl s) fun _ => Acts.ite (fun _ => refuse_acts s _) fun _ =>
    Acts.ite (fun _ => refuse_acts s _) fun _ => takeCommand_acts s

theorem writeArg_acts (s : State) (k : Nat) (w : Word) : Acts true s (s.writeArg k w) := by
  unfold State.writeArg
  split
  · exact port_acts s { s.lpc with arg0 := w } rfl rfl rfl rfl rfl
  · exact port_acts s { s.lpc with arg1 := w } rfl rfl rfl rfl rfl
  · exact port_acts s { s.lpc with arg2 := w } rfl rfl rfl rfl rfl
  · exact port_acts s { s.lpc with arg3 := w } rfl rfl rfl rfl rfl
  · exact .refl s

theorem writeCmd_acts (s : State) (c : Byte) : Acts true s (s.writeCmd c) :=
  port_acts s { s.lpc with cmd := c } rfl rfl rfl rfl rfl

theorem withLd_acts (s : State) (w : Word) : Acts true s (s.withLd w) := port_acts s { s.lpc with ld := w } rfl rfl rfl rfl rfl

theorem issue_acts (s : State) (code : Byte) (args : List Word) : Acts true s (s.issue code args) :=
  Acts.ite (fun _ => .refl s) fun _ => .trans (Acts.foldl (fun s (p : Word × Nat) => writeArg_acts s p.2 p.1) _ s)
    (.trans (writeCmd_acts _ _) (goWrite_acts _))

theorem captureStartWord_acts (s : State) (la : Half) : Acts true s (s.captureStartWord la) := by
  unfold State.captureStartWord
  split
  · exact Acts.ite (fun _ => slot_acts s _ _)
      fun _ => .refl s
  · exact .refl s

/-! ### The link -/

theorem setTransmitting_acts (s : State) (f : Option Frame) : Acts true s (s.setTransmitting f) :=
  (Act.link (s := s) { s.liu with transmitting := f } rfl id id).acts

theorem restartKeepalive_acts (s : State) (i : SubIdx) : Acts own s (s.restartKeepalive i) :=
  modSub_acts_of_same s i _

theorem drop_length_le {α : Type} (l : List α) {n : Nat} (h : l.length ≤ n) : (l.drop 1).length ≤ n :=
  (List.length_drop (i := 1) (l := l) ▸ Nat.sub_le _ _).trans h

/-- What the offer of a request says of its tag: it is the oldest of the queue, and holds the request. -/
theorem offer_request {s : State} {t : TagIdx} {b : Binding} (h : s.offer = some (.request t b)) :
    (s.tag t).bound = some b := by
  unfold State.offer at h
  split at h
  · split at h
    · exact absurd h (by simp)
    · exact absurd h (by simp)
    · exact absurd h (by simp)
    · exact absurd h (by simp)
    · unfold State.headRequest at h
      split at h
      · exact absurd h (by simp)
      · rw [Option.map_eq_some_iff] at h
        obtain ⟨c, hc, he⟩ := h
        obtain ⟨rfl, rfl⟩ := Offer.request.inj he
        exact hc
  · exact absurd h (by simp)

theorem win_acts {s : State} {o : Offer} (h : s.offer = some o) : Acts true s (s.win o) := by
  cases o with
  | oneOff f => exact (Act.link (s := s) { s.liu with oneOff := s.liu.oneOff.drop 1 } rfl (drop_length_le _) id).acts
  | announce r =>
    exact (modRing_acts s r _).trans (Act.link (s := s.modRing r fun g => { g with announcePending := false })
      { s.liu with announcePtr := r } rfl id id).acts
  | release i =>
    exact .trans (modSub_acts_of_same s i fun b => { b with releasePending := false, lastReported := b.rm })
      (.trans (Act.link (s := s.modSub i _) { s.liu with releasePtr := i } rfl id id).acts (restartKeepalive_acts _ i))
  | reply f => exact (Act.link (s := s) { s.liu with replies := s.liu.replies.drop 1 } rfl id (drop_length_le _)).acts
  | request t b =>
    have hsent := rebind_acts (own := true) s t (c := { b with deadline := some s.config.requestTimeout }) (offer_request h) rfl
      (s.rqt.queue.drop 1) s.rqt.retryLine (drop_length_le _)
    refine hsent.trans (.trans ?_ (runGrants_acts _))
    exact Acts.ite (fun _ => restartKeepalive_acts _ _) fun _ => .refl _

/-! ### The timers -/

theorem retry_acts (s : State) (t : TagIdx) {b : Binding} (hb : (s.tag t).bound = some b) : Acts own s (s.retry t b) :=
  Acts.ite (fun h => rebind_acts s t (c := { b with attempts := b.attempts + 1, deadline := none }) hb rfl
      (s.rqt.queue ++ [t]) s.rqt.retryLine fun _ => by
        rw [List.length_append]
        exact of_decide_eq_true ((Bool.and_eq_true _ _).mp h).1)
    fun _ => rebind_acts s t (c := { b with attempts := b.attempts + 1, deadline := none }) hb rfl
      s.rqt.queue (s.rqt.retryLine ++ [t]) id

theorem abandonRequest_acts (s : State) (i : SubIdx) (q : Request) : Acts own s (s.abandonRequest i q) := by
  cases q with
  | join newest => exact .refl s
  | fetch first n g => exact (endFetch_acts s i).trans (flushTest_acts _ i)
  | pull q k n b => exact (endPull_acts s i).trans (abandonPull_acts _ i q)

theorem deadlineRunsOut_acts (s : State) (t : TagIdx) {b : Binding} (hb : (s.tag t).bound = some b) :
    Acts own s (s.deadlineRunsOut t b) :=
  Acts.ite (fun _ => .trans (freeTag_acts s t) (.trans (abandonRequest_acts _ _ _) (.trans (settle_acts _)
    (leaveTest_acts _ _)))) fun _ => Acts.ite (fun _ => retry_acts s t hb) fun _ =>
      (freeTag_acts s t).trans (endNow_acts _ _ _)

/-! ### Rosters and the serve engine -/

theorem restartSilence_acts (s : State) (r : RingIdx) (h : Station) : Acts true s (s.restartSilence r h) := modRing_acts s r _

theorem helloAtRing_acts (h : Station) (s : State) (r : RingIdx) : Acts true s (State.helloAtRing h s r) :=
  Acts.ite (fun _ => removeMember_acts _ _ _ _ _) fun _ => .refl s

/-- A change by a serve, which appends one reply at most to a queue with room for it. -/
theorem placeReply_acts (s : State) (f : Frame) (hroom : s.liu.replies.length < 8) : Acts true s (s.placeReply f) :=
  (Act.link (s := s) { s.liu with replies := s.liu.replies ++ [f] } rfl id fun _ => by
    rw [List.length_append]
    exact hroom).acts

theorem placeRefuse_acts (s : State) (e : ServeEntry) (why : Refused) (hroom : s.liu.replies.length < 8) :
    Acts true s (s.placeRefuse e why) := placeReply_acts s _ hroom

theorem judgeJoin_acts (s : State) (e : ServeEntry) (newest member : Bool) (hroom : s.liu.replies.length < 8) :
    Acts true s (s.judgeJoin e newest member) := by
  refine Acts.ite (fun _ => placeRefuse_acts s e _ hroom) fun _ => Acts.ite (fun _ => ?_) fun _ =>
    Acts.ite (fun _ => placeRefuse_acts s e _ hroom) fun _ => Acts.ite (fun _ => ?_) fun _ => placeRefuse_acts s e _ hroom
  · exact .trans (restartSilence_acts s _ _) (placeReply_acts _ _ hroom)
  · exact .trans (modRing_acts s _ _) (.trans (postRing_acts _ _ _ _ _) (placeReply_acts _ _ (by
      rw [State.postRing, post_liu]
      exact hroom)))

theorem judgeFetch_acts (s : State) (e : ServeEntry) (first : Seq) (count : Nat) (hroom : s.liu.replies.length < 8) :
    Acts true s (s.judgeFetch e first count) := by
  unfold State.judgeFetch
  split
  · exact placeRefuse_acts s e _ hroom
  · unfold State.listing
    dsimp only
    split
    · exact .trans (restartSilence_acts _ _ _) (placeReply_acts _ _ hroom)
    · exact .trans (modRing_acts _ _ _) (.trans (restartSilence_acts _ _ _) (placeReply_acts _ _ hroom))

theorem judgePull_acts (s : State) (e : ServeEntry) (q : Seq) (k n : Nat) (hroom : s.liu.replies.length < 8) :
    Acts true s (s.judgePull e q k n) :=
  Acts.ite (fun _ => .trans (restartSilence_acts s _ _) (placeReply_acts _ _ hroom)) fun _ => placeRefuse_acts s e _ hroom

theorem judge_acts (s : State) (e : ServeEntry) (member : Bool) (hroom : s.liu.replies.length < 8) :
    Acts true s (s.judge e member) := by
  unfold State.judge
  split
  · exact judgeJoin_acts s e _ member hroom
  · split
    · exact placeRefuse_acts s e _ hroom
    · exact judgeFetch_acts s e _ _ hroom
  · split
    · exact placeRefuse_acts s e _ hroom
    · exact judgePull_acts s e _ _ _ hroom

theorem progressValidation_liu (s : State) : (progressValidation s).liu = s.liu := by
  unfold progressValidation
  split <;> rfl

theorem removeMember_liu (s : State) (r : RingIdx) (h : Station) (k : NoticeKind) (reason : Byte) :
    (s.removeMember r h k reason).liu = s.liu := by
  unfold State.removeMember State.closeRing State.postRing
  dsimp only
  split
  · rw [post_liu, modRing_liu, progressValidation_liu, post_liu, modRing_liu]
  · rw [post_liu, modRing_liu]

theorem compareRoster_liu (s : State) (r : RingIdx) (h : Station) (inc : Half) : (s.compareRoster r h inc).1.liu = s.liu := by
  unfold State.compareRoster
  split
  · rfl
  · split
    · rfl
    · exact removeMember_liu _ _ _ _ _

theorem serve_acts (s : State) (e : ServeEntry) (hroom : s.liu.replies.length < 8) : Acts true s (s.serve e) := by
  refine .trans (Act.publish (s := s) { s.pub with serveQueue := s.pub.serveQueue.drop 1 } rfl (drop_length_le _)).acts
    (.trans (compareRoster_acts _ _ _ _) (judge_acts _ e _ ?_))
  rw [compareRoster_liu]
  exact hroom

theorem nextServe_eq_some {s : State} {e : ServeEntry} (h : s.nextServe = some e) :
    s.liu.replies.length < 8 ∧ s.pub.serveQueue.head? = some e := by
  unfold State.nextServe at h
  split at h
  · exact ⟨‹_›, h⟩
  · exact absurd h (by simp)

/-! ### Pull turns -/

theorem nextTurn_ready {s : State} {i : SubIdx} (h : s.nextTurn = some i) : (s.sub i).ready = true :=
  List.find?_some (p := fun i => (s.sub i).ready) h

theorem ready_live {b : Sub} (h : b.ready = true) : b.state.live = true := by
  simp only [Sub.ready, Sub.consuming, Bool.and_eq_true, Bool.or_eq_true, beq_iff_eq] at h
  obtain ⟨⟨hstate, -⟩, -⟩ := h
  rcases hstate with e | e <;> rw [e] <;> rfl

theorem startPull_acts (s : State) (i : SubIdx) (im : Image) (blocks : List Nat) : Acts own s (s.startPull i im blocks) := by
  rw [startPull_eq]
  exact .trans (setEntry_acts s i _ _) (modSub_acts_of_same _ i _)

theorem startOrWait_acts (s : State) (i : SubIdx) (im : Image) : Acts own s (s.startOrWait i im) :=
  Acts.ite (fun _ => .trans (Act.pool (s := s) (s.allocate i im.seq _).pdu (takeBlocks_length _ _ _ _ _ _) rfl rfl rfl
    rfl).acts (startPull_acts _ _ _ _)) fun _ =>
      modSub_acts_of_same s i _

theorem noteAnswer_acts (s : State) (i : SubIdx) : Acts own s (s.noteAnswer i) := by
  obtain ⟨w, hw⟩ := noteAnswer_eq s i
  rw [hw]
  exact modSub_acts_of_same s i _

theorem takeTurn_acts (s : State) (i : SubIdx) : Acts own s (s.takeTurn i) :=
  (Act.pool (s := s) (s.takeTurn i).pdu rfl rfl rfl rfl rfl).acts

theorem pullStartTurn_acts (s : State) (i : SubIdx) : Acts own s (s.pullStartTurn i) := by
  unfold State.pullStartTurn
  split
  · exact (startOrWait_acts s i _).trans (deliverAll_acts _)
  · exact noteAnswer_acts s i

theorem chunkTurn_acts (s : State) (i : SubIdx) (q : Seq) (k : Nat) (h : (s.sub i).ready = true) :
    Acts own s (s.chunkTurn i q k) := by
  unfold State.chunkTurn
  split
  · exact .refl s
  · refine .trans (modSub_acts_of_same s i _) (claim_acts _ i _ ?_)
    rw [sub_modSub_self]
    exact ready_live (b := s.sub i) h

/-- What the consumer's elementary changes leave alone. -/
theorem Act.consumer {s t : State} (h : Act false s t) : ConsumerSide s t := by
  cases h with
  | post n => exact post_consumerSide s n
  | port l hown => exact absurd hown (by simp)
  | readNotice hown => exact absurd hown (by simp)
  | link l hown => exact absurd hown (by simp)
  | publish p hown => exact absurd hown (by simp)
  | _ => exact ⟨rfl, rfl, rfl, rfl⟩

theorem Acts.consumer {s t : State} (h : Acts false s t) : ConsumerSide s t :=
  h.keeps (inv := ConsumerSide s) (fun _ _ ha hs => hs.trans ha.consumer) (.refl s)

/-! ### The commands -/

/-- The commands that are no chain of elementary changes: a reset, its release, and the completion of a START. -/
def restarts : Instr → Bool
  | .reset _ | .resetRelease _ _ | .startCompletion => true
  | _ => false

/-- `r` answers a next state, by elementary changes from `s`. -/
def Proceeds (own : Bool) (s : State) (r : Result) : Prop := ∃ t, r = .next t ∧ Acts own s t

theorem Proceeds.next {s t : State} (h : Acts own s t) : Proceeds own s (.next t) := ⟨t, rfl, h⟩

theorem Proceeds.stay (s : State) : Proceeds own s (.next s) := .next (.refl s)

theorem Proceeds.ite {c : Prop} [Decidable c] {s : State} {r q : Result} (hr : c → Proceeds own s r) (hq : ¬ c → Proceeds own s q) :
    Proceeds own s (if c then r else q) := by split <;> solve_by_elim

theorem execRegisterWrite_proceeds (alsoRead : Bool) (la : Half) (ld : Word) (s : State) :
    Proceeds true s (execRegisterWrite alsoRead la ld s) := by
  refine .ite (fun _ => .next (withLd_acts s 0)) fun _ => .ite (fun _ => .stay s) fun _ => ?_
  split
  · exact .next (writeCmd_acts s _)
  · exact .next (writeArg_acts s _ _)
  · exact .next (writeArg_acts s _ _)
  · exact .next (writeArg_acts s _ _)
  · exact .next (writeArg_acts s _ _)
  · exact .next (goWrite_acts s)
  · exact .stay s

theorem execLocalMemoryAccess_proceeds (lrd lwr : Bool) (la : Half) (ld : Word) (s : State) :
    Proceeds true s (execLocalMemoryAccess lrd lwr la ld s) := by
  refine .ite (fun _ => .next (Acts.ite (fun _ => withLd_acts s 0) fun _ => .refl s)) fun _ => ?_
  split
  · exact .next (withLd_acts s 0)
  · exact .next (withLd_acts s _)
  · exact .next (.trans (captureStartWord_acts s la) (.trans (progressValidation_acts _) (putBytes_acts _ _ _)))
  · exact .stay s

theorem execArbitration_proceeds (others : List Byte) (s : State) : Proceeds true s (execArbitration others s) := by
  unfold execArbitration
  split
  · exact .next (setTransmitting_acts s _)
  · rename_i o ho
    exact .ite (fun _ => .next ((win_acts ho).trans (setTransmitting_acts _ _))) fun _ => .next (setTransmitting_acts s _)

theorem getD_acts {s : State} {o : Option State} (h : ∀ t, o = some t → Acts own s t) : Acts own s (o.getD s) := by
  cases o with
  | none => exact .refl s
  | some t => exact h t rfl

theorem execDeadlineExpiry_proceeds (t : TagIdx) (s : State) : Proceeds own s (execDeadlineExpiry t s) := by
  unfold execDeadlineExpiry
  split
  · exact .stay s
  · rename_i b hb
    exact .ite (fun _ => .next (deadlineRunsOut_acts s t hb)) fun _ => .stay s

theorem execPollExpiry_proceeds (i : SubIdx) (s : State) : Proceeds own s (execPollExpiry i s) := by
  unfold execPollExpiry
  dsimp only
  refine .ite (fun _ => .ite (fun hprobe => .next ?_) fun _ => .next (restartPoll_acts s i)) fun _ => .stay s
  have hactive : (((s.restartPoll i).modSub i fun b => { b with fetchesOut := b.fetchesOut + 1 }).sub i).state.live = true := by
    simp only [Sub.probes, Bool.and_eq_true, beq_iff_eq] at hprobe
    rw [sub_modSub_self]
    rw [hprobe.1.1.1]
    rfl
  exact .trans (restartPoll_acts s i) (.trans (modSub_acts_of_same _ i fun b => { b with fetchesOut := b.fetchesOut + 1 })
    (.trans (claim_acts _ i _ hactive) (evaluate_acts _ _)))

theorem execSilenceExpiry_proceeds (r : RingIdx) (h : Station) (s : State) : Proceeds true s (execSilenceExpiry r h s) := by
  unfold execSilenceExpiry
  split
  · exact .stay s
  · exact .ite (fun _ => .next ((placeOneOff_acts s _).trans (removeMember_acts _ _ _ _ _))) fun _ => .stay s

theorem execAnnounceFrame_proceeds (a : Arrival) (s : State) : Proceeds own s (execAnnounceFrame a s) := by
  refine .ite (fun _ => ?_) fun _ => .stay s
  split
  · exact .stay s
  · refine .ite (fun _ => ?_) fun _ => .stay s
    split
    · exact .next (takeAnnounce_acts s _ _)
    · exact .next (endNow_acts s _ _)
    · exact .stay s

theorem execEvictFrame_proceeds (a : Arrival) (s : State) : Proceeds own s (execEvictFrame a s) := by
  refine .ite (fun _ => ?_) fun _ => .stay s
  split
  · exact .stay s
  · refine .ite (fun _ => ?_) fun _ => .stay s
    split
    · exact .next (endNow_acts s _ _)
    · exact .next (endNow_acts s _ _)
    · exact .stay s

theorem execLeaveFrame_proceeds (a : Arrival) (s : State) : Proceeds true s (execLeaveFrame a s) := by
  refine .ite (fun _ => .ite (fun _ => .stay s) fun _ => .ite (fun _ => .stay s) fun _ => ?_) fun _ => .stay s
  have hcompare := compareRoster_acts s (ringOfField a.header.ring) a.header.source a.header.incarnation
  split
  · rename_i t e
    rw [e] at hcompare
    exact .next (hcompare.trans (removeMember_acts _ _ _ _ _))
  · rename_i t e
    rw [e] at hcompare
    exact .next hcompare

theorem execReleaseFrame_proceeds (a : Arrival) (s : State) : Proceeds true s (execReleaseFrame a s) := by
  refine .ite (fun _ => .ite (fun _ => .stay s) fun _ => ?_) fun _ => .stay s
  have hcompare := compareRoster_acts s (ringOfField a.header.ring) a.header.source a.header.incarnation
  split
  · rename_i t e
    rw [e] at hcompare
    exact .next (hcompare.trans (.trans (modRing_acts _ _ _) (restartSilence_acts _ _ _)))
  · rename_i t e
    rw [e] at hcompare
    exact .next (hcompare.trans (placeOneOff_acts _ _))

theorem execRequestFrame_proceeds (k : RequestKind) (a : Arrival) (s : State) : Proceeds true s (execRequestFrame k a s) :=
  .ite (fun _ => .ite (fun hroom => .next (Act.publish (s := s)
    { s.pub with serveQueue := s.pub.serveQueue ++ [serveEntryOf k a.header] } rfl fun _ => by
      rw [List.length_append]
      exact hroom).acts) fun _ => .stay s) fun _ => .stay s

theorem execWelcomeFrame_proceeds (a : Arrival) (s : State) : Proceeds own s (execWelcomeFrame a s) := by
  refine .ite (fun _ => ?_) fun _ => .stay s
  split
  · exact .stay s
  · have hfree := freeTag_acts (own := own) s (tagOfField a.header.tag)
    dsimp only
    split
    · exact .next (hfree.trans (takeWelcome_acts _ _ _ _))
    · exact .next (hfree.trans (takeLateWelcome_acts _ _ _))
    · exact .next (hfree.trans (runGrants_acts _))

theorem execRefuseFrame_proceeds (a : Arrival) (s : State) : Proceeds own s (execRefuseFrame a s) := by
  refine .ite (fun _ => ?_) fun _ => .stay s
  split
  · exact .stay s
  · have hfree := freeTag_acts (own := own) s (tagOfField a.header.tag)
    dsimp only
    split
    · exact .next (hfree.trans (takeJoinRefusal_acts _ _ _))
    · split
      · exact .next (hfree.trans (endNow_acts _ _ _))
      · exact .next (hfree.trans (endNow_acts _ _ _))

theorem execListingFrame_proceeds (a : Arrival) (s : State) : Proceeds own s (execListingFrame a s) := by
  refine .ite (fun _ => ?_) fun _ => .stay s
  split
  · exact .stay s
  · have hfree := freeTag_acts (own := own) s (tagOfField a.header.tag)
    dsimp only
    split
    · exact .next (hfree.trans (endNow_acts _ _ _))
    · exact .ite (fun _ => .next (hfree.trans (.trans (takeListing_acts _ _ _ _ _) (finishFetch_acts _ _))))
        fun _ => .next (hfree.trans (finishFetch_acts _ _))
    · exact .next (hfree.trans (runGrants_acts _))

theorem execPayloadFrame_proceeds (a : Arrival) (s : State) : Proceeds own s (execPayloadFrame a s) := by
  refine .ite (fun _ => ?_) fun _ => .stay s
  split
  · exact .stay s
  · have hfree := freeTag_acts (own := own) s (tagOfField a.header.tag)
    dsimp only
    split
    · exact .next (hfree.trans (endNow_acts _ _ _))
    · exact .next (hfree.trans (.trans (endPull_acts _ _) (.trans (takePayload_acts _ _ _ _ _ _ _) (.trans (settle_acts _)
        (leaveTest_acts _ _)))))
    · exact .next (hfree.trans (runGrants_acts _))

/-- A serve that is due, of an entry of one kind. -/
theorem serve_proceeds {s : State} {e : ServeEntry} (h : s.nextServe = some e) : Proceeds true s (.next (s.serve e)) :=
  .next (serve_acts s e (nextServe_eq_some h).1)

theorem execServeJoin_proceeds (s : State) : Proceeds true s (execServeJoin s) := by
  unfold execServeJoin
  split
  · exact .stay s
  · split
    · exact serve_proceeds ‹_›
    · exact .stay s

theorem execServeFetch_proceeds (s : State) : Proceeds true s (execServeFetch s) := by
  unfold execServeFetch
  split
  · exact .stay s
  · split
    · exact serve_proceeds ‹_›
    · exact .stay s

theorem execServePull_proceeds (s : State) : Proceeds true s (execServePull s) := by
  unfold execServePull
  split
  · exact .stay s
  · split
    · exact serve_proceeds ‹_›
    · exact .stay s

theorem execPullStart_proceeds (s : State) : Proceeds own s (execPullStart s) := by
  unfold execPullStart
  split
  · exact .stay s
  · exact .ite (fun _ => .next ((takeTurn_acts s _).trans (pullStartTurn_acts _ _))) fun _ => .stay s

theorem execChunkIssue_proceeds (s : State) : Proceeds own s (execChunkIssue s) := by
  unfold execChunkIssue
  split
  · exact .stay s
  · rename_i i hi
    have hready := nextTurn_ready hi
    split
    · exact .stay s
    · exact .next ((takeTurn_acts s i).trans (chunkTurn_acts _ i _ _ hready))

/-- A command that does not restart the station answers a next state by elementary changes. -/
theorem exec_acts (c : Instr) (s : State) (hc : restarts c = false) : Proceeds true s (exec c s) := by
  cases c with
  | reset p => exact absurd hc (by simp [restarts])
  | resetRelease st br => exact absurd hc (by simp [restarts])
  | startCompletion => exact absurd hc (by simp [restarts])
  | start => exact .next (issue_acts s _ _)
  | openRing w0 w1 w2 w3 => exact .next (issue_acts s _ _)
  | advance w0 w1 => exact .next (issue_acts s _ _)
  | advanceCompletion => exact .next (completeAdvance_acts s)
  | retract w0 w1 => exact .next (issue_acts s _ _)
  | withdraw w0 w1 => exact .next (issue_acts s _ _)
  | ringStatus w0 w1 => exact .next (issue_acts s _ _)
  | join w0 w1 w2 w3 => exact .next (issue_acts s _ _)
  | leave w0 => exact .next (issue_acts s _ _)
  | flush w0 => exact .next (issue_acts s _ _)
  | flushAll => exact .next (issue_acts s _ _)
  | dismiss w0 => exact .next (issue_acts s _ _)
  | subStatus w0 w1 => exact .next (issue_acts s _ _)
  | accept w0 => exact .next (issue_acts s _ _)
  | retire w0 w1 => exact .next (issue_acts s _ _)
  | undefinedCommandCode code => exact .next (issue_acts s _ _)
  | registerWrite alsoRead la ld => exact execRegisterWrite_proceeds alsoRead la ld s
  | ntc0Read alsoWrite =>
    exact .ite (fun _ => .next (withLd_acts s 0)) fun _ => .ite (fun _ => .next (withLd_acts s 0)) fun _ =>
      .next (Act.readNotice rfl).acts
  | localMemoryAccess lrd lwr la ld => exact execLocalMemoryAccess_proceeds lrd lwr la ld s
  | arbitration others => exact execArbitration_proceeds others s
  | tagGrant => exact .next (getD_acts fun t h => (grantOnce_moves s t h).acts)
  | retryLineMove => exact .next (getD_acts fun t h => (moveRetryOnce_moves s t h).acts)
  | deadlineExpiry t => exact execDeadlineExpiry_proceeds t s
  | keepaliveExpiry i => exact .ite (fun _ => .next (modSub_acts_of_same s i _)) fun _ => .stay s
  | pollExpiry i => exact execPollExpiry_proceeds i s
  | silenceExpiry r h => exact execSilenceExpiry_proceeds r h s
  | drainExpiry r => exact .ite (fun _ => .next (closeRing_acts s r 1)) fun _ => .stay s
  | helloFrame a =>
    exact .ite (fun _ => .next (.trans (Act.post _).acts (.trans (Acts.foldl (fun s i => forcedEnd_acts s i .restarted) _ _)
      (settle_acts _)))) fun _ => .stay s
  | helloRosterRemoval a => exact .ite (fun _ => .next (Acts.foldl (helloAtRing_acts _) _ s)) fun _ => .stay s
  | announceFrame a => exact execAnnounceFrame_proceeds a s
  | requestFrame k a => exact execRequestFrame_proceeds k a s
  | leaveFrame a => exact execLeaveFrame_proceeds a s
  | releaseFrame a => exact execReleaseFrame_proceeds a s
  | evictFrame a => exact execEvictFrame_proceeds a s
  | welcomeFrame a => exact execWelcomeFrame_proceeds a s
  | refuseFrame a => exact execRefuseFrame_proceeds a s
  | listingFrame a => exact execListingFrame_proceeds a s
  | payloadFrame a => exact execPayloadFrame_proceeds a s
  | serveJoin => exact execServeJoin_proceeds s
  | serveFetch => exact execServeFetch_proceeds s
  | servePull => exact execServePull_proceeds s
  | pullStart => exact execPullStart_proceeds s
  | chunkIssue => exact execChunkIssue_proceeds s
  | blockGrantRound => exact .next ((blockGrantRound_acts s).trans (deliverAll_acts _))
  | lineWaitRound => exact .next (lineWaitRound_acts s)
  | delivery => exact .next (getD_acts fun t h => (deliverOnce_moves s t h).acts)

end Sys2Proof.Machine
end

section
/-! PROOFS. The invariants that an elementary change is checked against once: station memory, the queues, the Delivery Queue and
the pool, and the owners of requests. -/
namespace Sys2Proof.Machine

/-! ### A step, as far as an invariant sees it -/

/-- The state that RESET and its release leave: reset values in every unit but LPC, whose notice queue and configuration are
empty, and memory kept or cleared (R173, R174). -/
def State.restarted (l : Lpc) (m : Memory) (p : List Instr) (n : Nat) : State :=
  { State.reset with lpc := l, memory := m, pending := p, freeIndex := n }

/-- What LPC holds after a reset, as far as the invariants read it. -/
structure Lpc.cleared (l : Lpc) : Prop where
  config  : l.config = .absent
  notices : l.notices = []
  lost    : l.lost = false
  dropped : l.dropped = 0

/-- What an invariant has to be checked against. -/
structure Checked (inv : State → Prop) : Prop where
  pending : ∀ s p, inv s → inv { s with pending := p }
  act     : ∀ s t, Act true s t → inv s → inv t
  restart : ∀ s l m p n, inv s → l.cleared → m = [] ∨ m = s.memory → inv (State.restarted l m p n)
  startUp : ∀ s c, inv s → inv (s.startUp c)
  count   : ∀ s, inv s → inv s.countDown

theorem completeStart_cases (s : State) : (∃ c, completeStart s = s.startUp c) ∨ Acts true s (completeStart s) := by
  unfold completeStart
  split
  · dsimp only
    split
    · exact .inr (finish_acts s _ _ _)
    · exact .inl ⟨_, rfl⟩
  · exact .inr (.refl s)

theorem Checked.exec {inv : State → Prop} (h : Checked inv) {c : Instr} {s t : State} (hs : inv s)
    (he : exec c s = .next t) : inv t := by
  by_cases hc : restarts c = false
  · obtain ⟨u, hu, hacts⟩ := exec_acts c s hc
    obtain rfl := Host.Outcome.next.inj (he.symm.trans hu)
    exact hacts.keeps h.act hs
  · cases c <;> simp only [restarts, not_true_eq_false] at hc
    case reset p =>
      obtain rfl := Host.Outcome.next.inj he
      refine h.restart s Lpc.reset _ _ _ hs ⟨rfl, rfl, rfl, rfl⟩ ?_
      cases p <;> simp
    case resetRelease st br =>
      change execResetRelease st br s = _ at he
      unfold execResetRelease at he
      split at he
      · obtain rfl := Host.Outcome.next.inj he
        exact h.restart s _ _ _ _ hs ⟨rfl, rfl, rfl, rfl⟩ (.inr rfl)
      · obtain rfl := Host.Outcome.next.inj he
        exact hs
    case startCompletion =>
      obtain rfl := Host.Outcome.next.inj he
      rcases completeStart_cases s with ⟨k, hk⟩ | hacts
      · rw [hk]
        exact h.startUp s k hs
      · exact hacts.keeps h.act hs

/-- An invariant that is checked is kept by every step. -/
theorem Checked.kept {inv : State → Prop} (h : Checked inv) : keptByStep inv := by
  intro s t hs hstep
  unfold step at hstep
  split at hstep
  · exact h.exec (h.pending s _ hs) hstep
  · obtain rfl := Host.Outcome.next.inj hstep
    unfold tick
    split
    · exact h.pending _ _ (h.count s hs)
    · exact hs

/-! ### Every command answers a next state -/

theorem post_lpc (s : State) (n : Notice) : (s.post n).lpc =
    if s.lpc.notices.length < 64 then { s.lpc with notices := s.lpc.notices ++ [n] }
    else { s.lpc with lost := true, dropped := if s.lpc.dropped = 0xFFFFFFFF then 0xFFFFFFFF else s.lpc.dropped + 1 } := by
  exact apply_ite State.lpc _ _ _

/-- The notice queue after a read of NTC0 (R185, R186). -/
theorem readNotice_cases (s : State) :
    (∃ l, s.readNotice = { s with lpc := l } ∧ l.config = s.lpc.config ∧ l.lost = s.lpc.lost ∧ l.dropped = s.lpc.dropped ∧
      (s.lpc.notices = [] ∧ l.notices = [] ∨ s.lpc.lost = false ∧ ∃ n, s.lpc.notices = n :: l.notices)) ∨
    (∃ l n rest x, s.readNotice = { s with lpc := l } ∧ l.config = s.lpc.config ∧ l.lost = false ∧ l.dropped = 0 ∧
      s.lpc.notices = n :: rest ∧ l.notices = rest ++ [x]) := by
  unfold State.readNotice
  split
  · rename_i hnil
    exact .inl ⟨_, rfl, rfl, rfl, rfl, .inl ⟨hnil, hnil⟩⟩
  · rename_i n rest hcons
    dsimp only
    split
    · exact .inr ⟨_, n, rest, _, rfl, rfl, rfl, rfl, hcons, rfl⟩
    · rename_i hlost
      exact .inl ⟨_, rfl, rfl, rfl, rfl, .inr ⟨by simpa using hlost, n, hcons⟩⟩

theorem act_pending {s t : State} (h : Act true s t) : t.pending = s.pending := by
  cases h with
  | post n => exact post_pending s n
  | readNotice hown =>
    rcases readNotice_cases s with ⟨l, h, -⟩ | ⟨l, n, rest, x, h, -⟩ <;> rw [h]
  | _ => rfl

theorem startUp_pending (s : State) (c : StartConfig) : (s.startUp c).pending = s.pending := by
  unfold State.startUp
  simp

/-- Settles O2: a command is a chain of elementary changes, or restarts the station. -/
theorem everyCommandAnswersNext : Obligations.EveryCommandAnswersNext := by
  intro c s
  have hkept {t : State} (h : Acts true s t) : t.pending = s.pending :=
    h.keeps (inv := fun u => u.pending = s.pending) (fun _ _ ha hu => (act_pending ha).trans hu) rfl
  by_cases hc : restarts c = false
  · obtain ⟨t, ht, hacts⟩ := exec_acts c s hc
    exact ⟨t, ht, hkept hacts⟩
  · cases c <;> simp only [restarts, not_true_eq_false] at hc
    case reset p => exact ⟨_, rfl, rfl⟩
    case resetRelease st br =>
      by_cases h : s.lpc.state = .reset
      · exact ⟨_, if_pos h, rfl⟩
      · exact ⟨s, if_neg h, rfl⟩
    case startCompletion =>
      refine ⟨_, rfl, ?_⟩
      rcases completeStart_cases s with ⟨k, hk⟩ | hacts
      · rw [hk, startUp_pending]
      · exact hkept hacts

/-! ### Station memory -/

/-- Settles O53. -/
theorem stepKeepsMemoryCanonical : Obligations.StepKeepsMemoryCanonical := by
  refine Checked.kept ⟨fun _ _ h => h, fun s t h hs => ?_, fun s l m p n hs _ hm => ?_, fun s c hs => ?_, fun _ h => h⟩
  · cases h with
    | store m h => exact h hs
    | post n => unfold MemoryCanonical; rw [post_memory]; exact hs
    | readNotice hown => rcases readNotice_cases s with ⟨l, h, -⟩ | ⟨l, n, rest, x, h, -⟩ <;> rw [h] <;> exact hs
    | _ => exact hs
  · rcases hm with rfl | rfl
    · rfl
    · exact hs
  · unfold State.startUp
    simpa [MemoryCanonical] using hs

/-! ### The queues -/

theorem oneOff_placeOneOff_le {s : State} (f : Frame) (h : s.liu.oneOff.length ≤ 8) :
    (s.placeOneOff f).liu.oneOff.length ≤ 8 := by
  unfold State.placeOneOff
  split
  · rename_i hroom
    show (s.liu.oneOff ++ [f]).length ≤ 8
    rw [List.length_append]
    exact hroom
  · exact h

theorem notices_post_le {s : State} (n : Notice) (h : s.lpc.notices.length ≤ 64) : (s.post n).lpc.notices.length ≤ 64 := by
  rw [post_lpc]
  split
  · rename_i hroom
    show (s.lpc.notices ++ [n]).length ≤ 64
    rw [List.length_append]
    exact hroom
  · exact h

theorem notices_readNotice_le {s : State} (h : s.lpc.notices.length ≤ 64) : s.readNotice.lpc.notices.length ≤ 64 := by
  rcases readNotice_cases s with ⟨l, he, -, -, -, ⟨-, hnil⟩ | ⟨-, n, hcons⟩⟩ | ⟨l, n, rest, x, he, -, -, -, hcons, hl⟩ <;> rw [he]
  · simp [hnil]
  · rw [hcons, List.length_cons] at h
    exact Nat.le_of_succ_le h
  · rw [hcons, List.length_cons] at h
    rw [hl, List.length_append]
    exact h

theorem startUp_queues {s : State} (c : StartConfig) (h : QueuesBounded s) : QueuesBounded (s.startUp c) := by
  obtain ⟨hnotices, honeOff, hreplies, hrequests, hserve⟩ := h
  unfold State.startUp
  refine ⟨?_, oneOff_placeOneOff_le _ honeOff, ?_, ?_, ?_⟩ <;> simpa

theorem queuesBounded_checked : Checked QueuesBounded := by
  refine ⟨fun _ _ h => h, fun s t h hs => ?_, fun s l m p n hs hl _ => ?_, fun s c hs => startUp_queues c hs, fun _ h => h⟩
  · obtain ⟨hnotices, honeOff, hreplies, hrequests, hserve⟩ := hs
    cases h with
    | track r hroom howned => exact ⟨hnotices, honeOff, hreplies, hroom hrequests, hserve⟩
    | port l hown hconfig hn hlost hdropped => exact ⟨hn ▸ hnotices, honeOff, hreplies, hrequests, hserve⟩
    | post n => exact ⟨notices_post_le n hnotices, by simpa, by simpa, by simpa, by simpa⟩
    | readNotice hown =>
      refine ⟨notices_readNotice_le hnotices, ?_⟩
      rcases readNotice_cases s with ⟨l, he, -⟩ | ⟨l, n, rest, x, he, -⟩ <;> rw [he] <;>
        exact ⟨honeOff, hreplies, hrequests, hserve⟩
    | oneOff l ho => exact ⟨hnotices, ho honeOff, hreplies, hrequests, hserve⟩
    | link l hown ho hr => exact ⟨hnotices, ho honeOff, hr hreplies, hrequests, hserve⟩
    | publish p hown hp => exact ⟨hnotices, honeOff, hreplies, hrequests, hp hserve⟩
    | _ => exact ⟨hnotices, honeOff, hreplies, hrequests, hserve⟩
  · refine ⟨?_, Nat.zero_le _, Nat.zero_le _, Nat.zero_le _, Nat.zero_le _⟩
    show l.notices.length ≤ 64
    simp [hl.notices]

theorem noticesCoherent_post {s : State} (n : Notice) (h : NoticesCoherent s) : NoticesCoherent (s.post n) := by
  obtain ⟨hle, hfull, hdropped⟩ := h
  refine ⟨notices_post_le n hle, ?_⟩
  rw [post_lpc]
  split
  · rename_i hroom
    exact ⟨fun hlost => absurd (hfull hlost) (Nat.ne_of_lt hroom), hdropped⟩
  · rename_i hroom
    refine ⟨fun _ => Nat.le_antisymm hle (Nat.not_lt.1 hroom), fun _ => ?_, fun _ => rfl⟩
    show (if s.lpc.dropped = 0xFFFFFFFF then 0xFFFFFFFF else s.lpc.dropped + 1) ≠ 0
    split
    · decide
    · rename_i hne
      bv_omega

theorem noticesCoherent_readNotice {s : State} (h : NoticesCoherent s) : NoticesCoherent s.readNotice := by
  obtain ⟨hle, hfull, hdropped⟩ := h
  refine ⟨notices_readNotice_le hle, ?_⟩
  rcases readNotice_cases s with ⟨l, he, -, hlost, hdrop, hl⟩ | ⟨l, n, rest, x, he, -, hlost, hdrop, -⟩ <;> rw [he]
  · show (l.lost = true → l.notices.length = 64) ∧ (l.lost = true ↔ l.dropped ≠ 0)
    rw [hlost, hdrop]
    refine ⟨fun hset => ?_, hdropped⟩
    rcases hl with ⟨hnil, -⟩ | ⟨hclear, -⟩
    · exact absurd (hfull hset) (by simp [hnil, Config.noticePlaces])
    · exact absurd hset (by simp [hclear])
  · show (l.lost = true → l.notices.length = 64) ∧ (l.lost = true ↔ l.dropped ≠ 0)
    simp [hlost, hdrop]

theorem startUp_lpc (s : State) (c : StartConfig) : (s.startUp c).lpc =
    { s.lpc with config := c, state := .running, res := 0, res0 := s.lpc.stationNumber.setWidth 32,
                 res1 := s.lpc.bitRate.setWidth 32, slot := .idle } := by
  unfold State.startUp
  simp [ResultCode.code]

theorem noticesCoherent_checked : Checked NoticesCoherent := by
  refine ⟨fun _ _ h => h, fun s t h hs => ?_, fun s l m p n hs hl _ => ?_, fun s c hs => ?_, fun _ h => h⟩
  · cases h with
    | port l hown hconfig hn hlost hdropped =>
      show l.notices.length ≤ 64 ∧ (l.lost = true → l.notices.length = 64) ∧ (l.lost = true ↔ l.dropped ≠ 0)
      rw [hn, hlost, hdropped]
      exact hs
    | post n => exact noticesCoherent_post n hs
    | readNotice hown => exact noticesCoherent_readNotice hs
    | _ => exact hs
  · show l.notices.length ≤ 64 ∧ (l.lost = true → l.notices.length = 64) ∧ (l.lost = true ↔ l.dropped ≠ 0)
    simp [hl.notices, hl.lost, hl.dropped]
  · unfold NoticesCoherent
    rw [startUp_lpc]
    exact hs

/-- Settles O54. -/
theorem stepKeepsQueueBounds : Obligations.StepKeepsQueueBounds :=
  ⟨queuesBounded_checked.kept, noticesCoherent_checked.kept⟩

/-! ### The Delivery Queue, the pool and the unretired records -/

theorem startUp_pdu (s : State) (c : StartConfig) : (s.startUp c).pdu =
    { s.pdu with blocks := List.replicate c.poolBlocks .free, capacity := c.queueCapacity, writeIndex := 0, readIndex := 0,
                 fill := 0 } := by
  unfold State.startUp
  simp

theorem startUp_subs (s : State) (c : StartConfig) : (s.startUp c).subs = s.subs := by
  unfold State.startUp
  simp

theorem startUp_rqt (s : State) (c : StartConfig) : (s.startUp c).rqt = s.rqt := by
  unfold State.startUp
  simp

theorem deliveryQueue_count {p : Pdu} (hwrite : p.writeIndex = (p.readIndex + p.fill) % p.capacity) :
    (p.writeIndex + 1) % p.capacity = (p.readIndex + (p.fill + 1)) % p.capacity := by
  rw [hwrite, Nat.mod_add_mod, Nat.add_assoc]

theorem deliveryQueue_accept {p : Pdu} {k : Nat} (hk : k ≤ p.fill)
    (hwrite : p.writeIndex = (p.readIndex + p.fill) % p.capacity) :
    p.writeIndex = ((p.readIndex + k) % p.capacity + (p.fill - k)) % p.capacity := by
  rw [hwrite, Nat.mod_add_mod]
  congr 1
  omega

theorem deliveryQueueCoherent_checked : Checked DeliveryQueueCoherent := by
  refine ⟨fun _ _ h => h, fun s t h hs => ?_, fun s l m p n hs _ _ => ⟨Nat.zero_le _, fun h => absurd h (Nat.lt_irrefl 0)⟩,
    fun s c hs => ?_, fun _ h => h⟩
  · cases h with
    | pool p hblocks hcapacity hwrite hread hfill =>
      show p.fill ≤ p.capacity ∧ (0 < p.capacity → p.readIndex < p.capacity ∧
        p.writeIndex = (p.readIndex + p.fill) % p.capacity)
      rw [hcapacity, hwrite, hread, hfill]
      exact hs
    | count i h => exact ⟨h, fun hpos => ⟨(hs.2 hpos).1, deliveryQueue_count (hs.2 hpos).2⟩⟩
    | accept k h =>
      exact ⟨(Nat.sub_le _ _).trans hs.1, fun hpos => ⟨Nat.mod_lt _ hpos, deliveryQueue_accept h (hs.2 hpos).2⟩⟩
    | post n => unfold DeliveryQueueCoherent; rw [post_pdu]; exact hs
    | readNotice hown => rcases readNotice_cases s with ⟨l, he, -⟩ | ⟨l, n, rest, x, he, -⟩ <;> rw [he] <;> exact hs
    | _ => exact hs
  · unfold DeliveryQueueCoherent
    rw [startUp_pdu]
    exact ⟨Nat.zero_le _, fun hpos => ⟨hpos, by simp⟩⟩

theorem poolSized_checked : Checked PoolSized := by
  refine ⟨fun _ _ h => h, fun s t h hs => ?_, fun s l m p n hs hl _ => ?_, fun s c hs => ?_, fun _ h => h⟩
  · cases h with
    | pool p hblocks hcapacity hwrite hread hfill => exact ⟨hblocks.trans hs.1, hcapacity.trans hs.2⟩
    | port l hown hconfig hn hlost hdropped =>
      show s.pdu.blocks.length = l.config.poolBlocks ∧ s.pdu.capacity = l.config.queueCapacity
      rw [hconfig]
      exact hs
    | post n => unfold PoolSized State.config; rw [post_pdu, post_lpc_config]; exact hs
    | readNotice hown =>
      rcases readNotice_cases s with ⟨l, he, hconfig, -⟩ | ⟨l, n, rest, x, he, hconfig, -⟩ <;> rw [he] <;>
        · show s.pdu.blocks.length = l.config.poolBlocks ∧ s.pdu.capacity = l.config.queueCapacity
          rw [hconfig]
          exact hs
    | _ => exact hs
  · show 0 = l.config.poolBlocks ∧ 0 = l.config.queueCapacity
    rw [hl.config]
    exact ⟨rfl, rfl⟩
  · unfold PoolSized State.config
    rw [startUp_pdu, startUp_lpc]
    exact ⟨List.length_replicate, rfl⟩

/-- A change of one record, read at every index. -/
theorem forall_sub_modSub {P : SubIdx → Sub → Prop} {s : State} {i : SubIdx} {b : Sub} (hb : P i b)
    (hs : ∀ j, P j (s.sub j)) (j : SubIdx) : P j ((s.modSub i fun _ => b).sub j) := by
  by_cases e : i = j
  · subst e
    rwa [sub_modSub_self]
  · rw [sub_modSub_ne s _ e]
    exact hs j

theorem restarted_sub (l : Lpc) (m : Memory) (p : List Instr) (n : Nat) (i : SubIdx) :
    (State.restarted l m p n).sub i = Sub.fresh 0 := by
  simp [State.sub, State.restarted, State.reset, Vector.get_eq_getElem]

theorem restarted_tag (l : Lpc) (m : Memory) (p : List Instr) (n : Nat) (t : TagIdx) :
    (State.restarted l m p n).tag t = { useCount := 0, bound := none } := by
  simp [State.tag, State.restarted, State.reset, Rqt.reset, Vector.get_eq_getElem]

theorem countDown_sub (s : State) (i : SubIdx) : s.countDown.sub i = (s.sub i).tick := mapTable_get _ _ _

theorem countDown_tag (s : State) (t : TagIdx) : s.countDown.tag t = (s.tag t).tick := mapTable_get _ _ _

theorem unretiredBounded_checked : Checked UnretiredBounded := by
  refine ⟨fun _ _ h => h, fun s t h hs => ?_, fun s l m p n hs _ _ i => ?_, fun s c hs i => ?_, fun s hs i => ?_⟩
  · cases h with
    | sub i b h =>
      exact forall_sub_modSub (P := fun _ b => b.unretired ≤ Config.unretiredLimit) (h.unretired (hs i)) hs
    | bury i b hnone hclaims hrm hdp =>
      refine forall_sub_modSub (P := fun _ b => b.unretired ≤ Config.unretiredLimit) ?_ hs
      rw [Sub.unretired, hrm, hdp]
      exact hs i
    | post n => intro i; rw [sub_congr (post_subs s n)]; exact hs i
    | readNotice hown => rcases readNotice_cases s with ⟨l, he, -⟩ | ⟨l, n, rest, x, he, -⟩ <;> rw [he] <;> exact hs
    | _ => exact hs
  · rw [restarted_sub]
    decide
  · rw [sub_congr (startUp_subs s c)]
    exact hs i
  · rw [countDown_sub]
    exact hs i

/-- Settles O56. -/
theorem stepKeepsDeliveryBounds : Obligations.StepKeepsDeliveryBounds :=
  ⟨deliveryQueueCoherent_checked.kept, poolSized_checked.kept, unretiredBounded_checked.kept⟩

/-! ### The owners of requests (R110) -/

theorem requestsOwned_congr {s t : State} (hsubs : t.subs = s.subs) (hrqt : t.rqt = s.rqt) (hs : RequestsOwned s) :
    RequestsOwned t := by
  refine ⟨fun u b hb => ?_, fun i hi => ?_⟩
  · rw [sub_congr hsubs]
    exact hs.1 u b (by rwa [tag_congr hrqt] at hb)
  · rw [sub_congr hsubs] at hi ⊢
    exact hs.2 i hi

theorem requestsOwned_sub {s : State} {i : SubIdx} {b : Sub} (h : Tame (s.sub i) b) (hs : RequestsOwned s) :
    RequestsOwned (s.modSub i fun _ => b) := by
  have hlive (j : SubIdx) (hj : (s.sub j).state.live = true) : ((s.modSub i fun _ => b).sub j).state.live = true := by
    by_cases e : i = j
    · subst e
      rw [sub_modSub_self]
      exact h.live hj
    · rwa [sub_modSub_ne s _ e]
  refine ⟨fun u c hc => hlive _ (hs.1 u c hc), forall_sub_modSub
    (P := fun _ (b : Sub) => b.claims ≠ [] → b.state.live = true) (fun hb => ?_) hs.2⟩
  exact (h.claims hb).elim (fun hclaims => h.live (hs.2 i hclaims)) id

theorem requestsOwned_bury {s : State} {i : SubIdx} {b : Sub} (hnone : s.nothingOutstanding i = true)
    (hclaims : b.claims = []) (hs : RequestsOwned s) : RequestsOwned (s.modSub i fun _ => b) := by
  obtain ⟨hbound, -⟩ := (nothingOutstanding_iff s i).1 hnone
  refine ⟨fun u c hc => ?_, forall_sub_modSub
    (P := fun _ (b : Sub) => b.claims ≠ [] → b.state.live = true) (fun hb => absurd hclaims hb) hs.2⟩
  rw [sub_modSub_ne s _ (Ne.symm (hbound u c hc))]
  exact hs.1 u c hc

theorem requestsOwned_checked : Checked RequestsOwned := by
  refine ⟨fun _ _ h => h, fun s t h hs => ?_, fun s l m p n hs _ _ => ⟨fun u b hb => ?_, fun i hi => ?_⟩, fun s c hs => ?_,
    fun s hs => ⟨fun u b hb => ?_, fun i hi => ?_⟩⟩
  · cases h with
    | sub i b h => exact requestsOwned_sub h hs
    | bury i b hnone hclaims hrm hdp => exact requestsOwned_bury hnone hclaims hs
    | track r hroom howned =>
      refine ⟨fun u b hb => ?_, hs.2⟩
      rcases howned u b hb with ⟨v, c, hc, hsame⟩ | hclaims
      · exact hsame ▸ hs.1 v c hc
      · exact hs.2 b.sub hclaims
    | post n => exact requestsOwned_congr (post_subs s n) (post_rqt s n) hs
    | readNotice hown => rcases readNotice_cases s with ⟨l, he, -⟩ | ⟨l, n, rest, x, he, -⟩ <;> rw [he] <;> exact hs
    | _ => exact hs
  · rw [restarted_tag] at hb
    exact absurd hb (by simp)
  · rw [restarted_sub] at hi
    exact absurd rfl hi
  · exact requestsOwned_congr (startUp_subs s c) (startUp_rqt s c) hs
  · rw [countDown_tag, Tag.tick, Option.map_eq_some_iff] at hb
    obtain ⟨c, hc, rfl⟩ := hb
    rw [countDown_sub]
    exact hs.1 u c hc
  · rw [countDown_sub] at hi ⊢
    exact hs.2 i hi

/-- Settles O57. -/
theorem stepKeepsRequestsOwned : Obligations.StepKeepsRequestsOwned := requestsOwned_checked.kept

end Sys2Proof.Machine
end

section
/-! PROOFS. The points of a ring: the distances from the reclaim point, the raise of the commit point, and the recomputation of
both points (R17 to R19). -/
namespace Sys2Proof.Machine

/-- Distances from a point `b` that lies between `a` and `c`. -/
theorem dist_shift {a b c : Seq} (h : (b - a).toNat ≤ (c - a).toNat) : (c - b).toNat = (c - a).toNat - (b - a).toNat := by
  rw [show c - b = (c - a) - (b - a) by ring, BitVec.toNat_sub_of_le (BitVec.le_def.2 h)]

/-- Of two points less than half the circle above `a`, one precedes the other as their distances say. -/
theorem seqBefore_dist {a b c : Seq} (hb : (b - a).toNat < 2147483648) (hc : (c - a).toNat < 2147483648) :
    seqBefore b c = true ↔ (b - a).toNat < (c - a).toNat := by
  rw [seqBefore_iff]
  bv_omega

theorem raiseCommit_dist {g : Ring} {q : Seq} (hcommit : (g.commit - g.reclaim).toNat < 2147483648)
    (hq : (q - g.reclaim).toNat < 2147483648) :
    ((g.raiseCommit q).commit - g.reclaim).toNat = max (g.commit - g.reclaim).toNat (q - g.reclaim).toNat := by
  have hbefore := seqBefore_dist hcommit hq
  show ((if seqBefore g.commit q then q else g.commit) - g.reclaim).toNat = _
  split
  · rename_i h
    exact (max_eq_right (hbefore.1 h).le).symm
  · rename_i h
    exact (max_eq_left (Nat.not_lt.1 fun hlt => h (hbefore.2 hlt))).symm

/-! ### The lowest mark (R19) -/

/-- The lower of a point and a member's mark, measured from `a`: one step of R19. -/
def lowerMark (a low : Seq) (n : Member) : Seq := if (n.mark - a).toNat < (low - a).toNat then n.mark else low

theorem foldl_lowerMark (a : Seq) : ∀ (ms : List Member) (low : Seq),
    (ms.foldl (lowerMark a) low = low ∨ ∃ n ∈ ms, ms.foldl (lowerMark a) low = n.mark) ∧
    (ms.foldl (lowerMark a) low - a).toNat ≤ (low - a).toNat ∧
    ∀ n ∈ ms, (ms.foldl (lowerMark a) low - a).toNat ≤ (n.mark - a).toNat
  | [], low => ⟨.inl rfl, Nat.le_refl _, fun _ h => absurd h (by simp)⟩
  | m :: ms, low => by
    obtain ⟨hfrom, hlow, hall⟩ := foldl_lowerMark a ms (lowerMark a low m)
    have hstep : (lowerMark a low m = low ∨ lowerMark a low m = m.mark) ∧
        (lowerMark a low m - a).toNat ≤ (low - a).toNat ∧ (lowerMark a low m - a).toNat ≤ (m.mark - a).toNat := by
      unfold lowerMark
      split
      · rename_i h
        exact ⟨.inr rfl, h.le, Nat.le_refl _⟩
      · rename_i h
        exact ⟨.inl rfl, Nat.le_refl _, Nat.not_lt.1 h⟩
    obtain ⟨hpick, hle, hm⟩ := hstep
    refine ⟨?_, hlow.trans hle, fun n hn => ?_⟩
    · rcases hfrom with e | ⟨n, hn, e⟩
      · rcases hpick with p | p
        · exact .inl (e.trans p)
        · exact .inr ⟨m, by simp, e.trans p⟩
      · exact .inr ⟨n, by simp [hn], e⟩
    · rcases List.mem_cons.1 hn with rfl | hn
      · exact hlow.trans hm
      · exact hall n hn

theorem reclaimValue_cons {g : Ring} {m : Member} {ms : List Member} (h : g.roster = m :: ms) :
    g.reclaimValue = ms.foldl (lowerMark g.reclaim) m.mark := by
  unfold Ring.reclaimValue
  rw [h]
  rfl

theorem reclaimValue_nil {g : Ring} (h : g.roster = []) : g.reclaimValue = if g.retain then g.reclaim else g.tail := by
  unfold Ring.reclaimValue
  rw [h]

/-- With members, the reclaim point is one of their marks, and the lowest. -/
theorem reclaimValue_lowest {g : Ring} (h : g.roster ≠ []) :
    (∃ m ∈ g.roster, g.reclaimValue = m.mark) ∧
      ∀ m ∈ g.roster, (g.reclaimValue - g.reclaim).toNat ≤ (m.mark - g.reclaim).toNat := by
  obtain ⟨m, ms, hr⟩ := List.exists_cons_of_ne_nil h
  obtain ⟨hfrom, hlow, hall⟩ := foldl_lowerMark g.reclaim ms m.mark
  rw [reclaimValue_cons hr, hr]
  refine ⟨?_, fun n hn => ?_⟩
  · rcases hfrom with e | ⟨n, hn, e⟩
    · exact ⟨m, by simp, e⟩
    · exact ⟨n, by simp [hn], e⟩
  · rcases List.mem_cons.1 hn with rfl | hn
    · exact hlow
    · exact hall n hn

/-! ### The recomputation (R18, R19) -/

@[simp] theorem recompute_reclaim (g : Ring) : g.recompute.reclaim = g.reclaimValue := rfl
@[simp] theorem recompute_roster (g : Ring) : g.recompute.roster = g.roster := rfl
@[simp] theorem recompute_tail (g : Ring) : g.recompute.tail = g.tail := rfl
@[simp] theorem recompute_state (g : Ring) : g.recompute.state = g.state := rfl

theorem recompute_commit (g : Ring) :
    g.recompute.commit = if seqBefore g.commit g.reclaimValue then g.reclaimValue else g.commit := rfl

theorem reclaimRecomputed : Part.ReclaimRecomputed := by
  refine fun g => ⟨fun hnil hretain => ?_, fun hnil hretain => ?_, fun m hm => ?_, fun h => ?_, rfl, rfl⟩
  · rw [recompute_reclaim, reclaimValue_nil hnil, if_pos hretain]
  · rw [recompute_reclaim, reclaimValue_nil hnil, hretain]
    rfl
  · exact (reclaimValue_lowest (List.ne_nil_of_mem hm)).2 m hm
  · exact (reclaimValue_lowest h).1

/-- What R17 says of a ring's points, but for the bound by the slot count. -/
structure Ring.inOrder (g : Ring) : Prop where
  held   : (g.tail - g.reclaim).toNat ≤ 512
  commit : (g.commit - g.reclaim).toNat ≤ (g.tail - g.reclaim).toNat
  marks  : ∀ m ∈ g.roster, (m.mark - g.reclaim).toNat ≤ (g.commit - g.reclaim).toNat

/-- The recomputed reclaim point lies in [reclaim point, tail], at or below every mark, and with members at or below the commit
point. -/
theorem reclaimValue_bounds {g : Ring} (h : g.inOrder) :
    (g.reclaimValue - g.reclaim).toNat ≤ (g.tail - g.reclaim).toNat ∧
      ∀ m ∈ g.roster, (g.reclaimValue - g.reclaim).toNat ≤ (m.mark - g.reclaim).toNat := by
  by_cases hnil : g.roster = []
  · refine ⟨?_, by simp [hnil]⟩
    rw [reclaimValue_nil hnil]
    split
    · simp
    · exact Nat.le_refl _
  · obtain ⟨⟨m, hm, e⟩, hlow⟩ := reclaimValue_lowest hnil
    exact ⟨e ▸ (h.marks m hm).trans h.commit, hlow⟩

theorem recompute_commit_dist {g : Ring} (h : g.inOrder) : (g.recompute.commit - g.reclaim).toNat =
    max (g.commit - g.reclaim).toNat (g.reclaimValue - g.reclaim).toNat := by
  have hb := (reclaimValue_bounds h).1
  have := h.held
  have := h.commit
  exact raiseCommit_dist (g := g) (by omega) (by omega)

theorem recomputeKeepsPointOrder : Part.RecomputeKeepsPointOrder := by
  intro g hheld hcommit hmarks
  have h : g.inOrder := ⟨hheld, hcommit, hmarks⟩
  obtain ⟨htail, hlow⟩ := reclaimValue_bounds h
  have hdist := recompute_commit_dist h
  have hcommit' : (g.recompute.commit - g.reclaim).toNat ≤ (g.tail - g.reclaim).toNat := by rw [hdist]; omega
  have hraised : (g.reclaimValue - g.reclaim).toNat ≤ (g.recompute.commit - g.reclaim).toNat := by rw [hdist]; omega
  refine ⟨?_, ?_, fun m hm => ?_, htail, by rw [hdist]; exact Nat.le_max_left _ _⟩
  · rw [recompute_tail, recompute_reclaim, dist_shift htail]
    exact Nat.sub_le _ _
  · rw [recompute_tail, recompute_reclaim, dist_shift htail, dist_shift hraised]
    exact Nat.sub_le_sub_right hcommit' _
  · rw [recompute_reclaim, dist_shift (hlow m hm), dist_shift hraised]
    refine Nat.sub_le_sub_right ?_ _
    rw [hdist]
    exact (hmarks m hm).trans (Nat.le_max_left _ _)

/-- Settles O31. -/
theorem ringPointsRecomputed : Obligations.RingPointsRecomputed := ⟨reclaimRecomputed, recomputeKeepsPointOrder⟩

end Sys2Proof.Machine
end

section
/-! PROOFS. Every ring record stays coherent, its points in order, and the room that a validating ADVANCE found stays (R3, R13,
R17, R125): each change of a ring record is checked once, and the commands are chains of them. -/
namespace Sys2Proof.Machine

/-! ### What a change of one ring record keeps -/

/-- The record `h` is coherent, and its points in order, when `g` was. -/
structure RingSound (g h : Ring) : Prop where
  coherent : ringCoherent g → ringCoherent h
  points   : ringCoherent g → (g.state ≠ .closed → pointsOrdered g) → h.state ≠ .closed → pointsOrdered h

/-- A change that also keeps an OPEN ring OPEN, with the room it has. -/
structure RingKept (g h : Ring) : Prop extends RingSound g h where
  opened : ringCoherent g → g.state = .opened → h.state = .opened
  room   : g.state = .opened → pointsOrdered g →
    (h.tail - h.reclaim).toNat ≤ (g.tail - g.reclaim).toNat ∧ h.slotCount = g.slotCount

theorem RingKept.refl (g : Ring) : RingKept g g := ⟨⟨id, fun _ h => h⟩, fun _ h => h, fun _ _ => ⟨Nat.le_refl _, rfl⟩⟩

/-- A roster is in station order when each entry's station is below every later one's. -/
theorem rosterOrdered_iff (l : List Member) :
    rosterOrdered l ↔ (l.map Member.station).Pairwise fun a b => a.toNat < b.toNat := by
  induction l with
  | nil => simp [rosterOrdered]
  | cons m ms ih => rw [List.map_cons, List.pairwise_cons, ← ih, List.forall_mem_map, rosterOrdered]

/-- The change of a record in its points, and in its roster by entries that go or keep their stations. -/
theorem RingKept.of_points {g h : Ring} (hstate : h.state = g.state) (hdrain : g.drain = none → h.drain = none)
    (hannounce : g.announcePending = false → h.announcePending = false) (hslots : h.slotCount = g.slotCount)
    (hroster : (h.roster.map Member.station).Sublist (g.roster.map Member.station))
    (hpoints : pointsOrdered g → pointsOrdered h ∧ (h.tail - h.reclaim).toNat ≤ (g.tail - g.reclaim).toNat) :
    RingKept g h where
  coherent := by
    intro ⟨hlength, hordered, hclosed, htimer⟩
    have hshort : h.roster.length ≤ g.roster.length := by simpa using hroster.length_le
    refine ⟨hshort.trans hlength, ?_, fun hc => ?_, fun hd => hstate ▸ htimer ?_⟩
    · rw [rosterOrdered_iff] at hordered ⊢
      exact hordered.sublist hroster
    · obtain ⟨hnil, hnone, hquiet⟩ := hclosed (hstate ▸ hc)
      exact ⟨List.length_eq_zero_iff.1 (by simpa [hnil] using hshort), hdrain hnone, hannounce hquiet⟩
    · rw [Option.isSome_iff_ne_none] at hd ⊢
      exact fun hn => hd (hdrain hn)
  points := fun _ hg hh => (hpoints (hg (hstate ▸ hh))).1
  opened := fun _ ho => hstate.trans ho
  room := fun _ ho => ⟨(hpoints ho).2, hslots⟩

theorem RingKept.trans {g h k : Ring} (a : RingKept g h) (b : RingKept h k) (hopened : g.state = .opened → h.state = .opened)
    (hpoints : pointsOrdered g → pointsOrdered h) : RingKept g k where
  coherent := fun hg => b.coherent (a.coherent hg)
  points := fun hg hp => b.points (a.coherent hg) (a.points hg hp)
  opened := fun hg ho => b.opened (a.coherent hg) (a.opened hg ho)
  room := fun ho hp => by
    obtain ⟨hheld, hslots⟩ := a.room ho hp
    obtain ⟨hheld', hslots'⟩ := b.room (hopened ho) (hpoints hp)
    exact ⟨hheld'.trans hheld, hslots'.trans hslots⟩

/-- Points in order are in order after the recomputation, and no more is held. -/
theorem pointsOrdered_recompute {g : Ring} (h : pointsOrdered g) :
    pointsOrdered g.recompute ∧ (g.recompute.tail - g.recompute.reclaim).toNat ≤ (g.tail - g.reclaim).toNat := by
  obtain ⟨hslots, hheld, hcommit, hmarks⟩ := h
  obtain ⟨hheld', hcommit', hmarks', -⟩ := recomputeKeepsPointOrder g (hheld.trans hslots) hcommit hmarks
  exact ⟨⟨hslots, hheld'.trans hheld, hcommit', hmarks'⟩, hheld'⟩

/-- The raise of the commit point to a point in [reclaim point, tail] keeps the order. -/
theorem pointsOrdered_raiseCommit {g : Ring} {q : Seq} (h : pointsOrdered g)
    (hq : (q - g.reclaim).toNat ≤ (g.tail - g.reclaim).toNat) : pointsOrdered (g.raiseCommit q) := by
  obtain ⟨hslots, hheld, hcommit, hmarks⟩ := h
  have hdist := raiseCommit_dist (g := g) (q := q) (by omega) (by omega)
  refine ⟨hslots, hheld, ?_, fun m hm => (hmarks m hm).trans ?_⟩
  · change ((g.raiseCommit q).commit - g.reclaim).toNat ≤ _
    rw [hdist]
    exact max_le hcommit hq
  · change _ ≤ ((g.raiseCommit q).commit - g.reclaim).toNat
    rw [hdist]
    exact Nat.le_max_left _ _

/-! ### The changes that a ring record goes through -/

theorem dropMember_kept (g : Ring) (h : Station) : RingKept g (g.dropMember h) :=
  .of_points rfl id id rfl (List.filter_sublist.map _) fun ⟨hslots, hheld, hcommit, hmarks⟩ =>
    pointsOrdered_recompute (g := { g with roster := g.roster.filter fun m => m.station != h })
      ⟨hslots, hheld, hcommit, fun m hm => hmarks m (List.mem_filter.1 hm).1⟩

/-- A change of each roster entry that keeps its station and its mark. -/
theorem mapRoster_kept {g : Ring} {f : Member → Member} {d : Timer} (hf : ∀ m, (f m).station = m.station ∧ (f m).mark = m.mark)
    (hd : g.drain = none → d = none) : RingKept g { g with roster := g.roster.map f, drain := d } := by
  refine .of_points rfl hd id rfl ?_ fun ⟨hslots, hheld, hcommit, hmarks⟩ => ⟨⟨hslots, hheld, hcommit, ?_⟩, Nat.le_refl _⟩
  · rw [List.map_map, show Member.station ∘ f = Member.station from funext fun m => (hf m).1]
  · intro m hm
    obtain ⟨n, hn, rfl⟩ := List.mem_map.1 hm
    rw [(hf n).2]
    exact hmarks n hn

theorem tick_kept (g : Ring) : RingKept g g.tick :=
  mapRoster_kept (fun _ => ⟨rfl, rfl⟩) fun h => by rw [h]; rfl

theorem restartMember_kept (g : Ring) (h : Station) (n : Nat) :
    RingKept g (g.modMember h fun m => { m with silence := some n }) :=
  mapRoster_kept (fun m => by split <;> exact ⟨rfl, rfl⟩) id

theorem announced_kept (g : Ring) : RingKept g { g with announcePending := false } :=
  .of_points rfl id (fun _ => rfl) rfl (.refl _) fun h => ⟨h, Nat.le_refl _⟩

theorem adoptMark_kept (g : Ring) (h : Station) (q : Seq) : RingKept g (g.adoptMark h q) := by
  unfold Ring.adoptMark
  split
  · exact .refl g
  · rename_i x hx
    split
    · rename_i hin
      have hin : (q - x.mark).toNat ≤ (g.commit - x.mark).toNat := of_decide_eq_true hin
      refine .of_points rfl id id rfl ?_ fun ⟨hslots, hheld, hcommit, hmarks⟩ => pointsOrdered_recompute
        (g := g.modMember h fun y => { y with mark := q }) ⟨hslots, hheld, hcommit, fun m hm => ?_⟩
      · change List.Sublist (List.map _ (List.map _ _)) _
        rw [List.map_map]
        rw [List.map_congr_left (g := Member.station) fun m _ => by dsimp only [Function.comp]; split <;> rfl]
      · change (m.mark - g.reclaim).toNat ≤ (g.commit - g.reclaim).toNat
        obtain ⟨n, hn, rfl⟩ := List.mem_map.1 hm
        have hx := hmarks x (List.mem_of_find?_eq_some hx)
        have hn := hmarks n hn
        split
        · change (q - g.reclaim).toNat ≤ (g.commit - g.reclaim).toNat
          clear * - hin hx
          bv_omega
        · exact hn
    · exact .refl g

theorem raiseCommit_kept (g : Ring) (q : Seq)
    (hq : pointsOrdered g → (q - g.reclaim).toNat ≤ (g.tail - g.reclaim).toNat) : RingKept g (g.raiseCommit q) :=
  .of_points rfl id id rfl (.refl _) fun h => ⟨pointsOrdered_raiseCommit h (hq h), Nat.le_refl _⟩

/-- A ring that is not OPEN is closed. -/
theorem close_kept {g : Ring} (h : ringCoherent g → g.state ≠ .opened) : RingKept g g.close where
  coherent := fun _ => ⟨Nat.zero_le _, trivial, fun _ => ⟨rfl, rfl, rfl⟩, fun hd => absurd hd (by simp [Ring.close])⟩
  points := fun _ _ hh => absurd rfl hh
  opened := fun hg ho => absurd ho (h hg)
  room := fun ho _ => ⟨Nat.le_refl _, rfl⟩

theorem mem_insertMember {n x : Member} {l : List Member} : x ∈ insertMember n l ↔ x = n ∨ x ∈ l := by
  induction l with
  | nil => simp [insertMember]
  | cons m ms ih =>
    unfold insertMember
    split
    · simp
    · rw [List.mem_cons, ih, List.mem_cons]
      tauto

theorem length_insertMember (n : Member) (l : List Member) : (insertMember n l).length = l.length + 1 := by
  induction l with
  | nil => rfl
  | cons m ms ih =>
    unfold insertMember
    split
    · rfl
    · rw [List.length_cons, ih, List.length_cons]

/-- A station with no entry takes its place in the order. -/
theorem rosterOrdered_insertMember {n : Member} {l : List Member} (h : rosterOrdered l)
    (hnew : ∀ m ∈ l, m.station ≠ n.station) : rosterOrdered (insertMember n l) := by
  induction l with
  | nil => exact ⟨by simp, trivial⟩
  | cons m ms ih =>
    obtain ⟨hm, hms⟩ := h
    unfold insertMember
    split
    · rename_i hlt
      refine ⟨fun x hx => ?_, hm, hms⟩
      rcases List.mem_cons.1 hx with rfl | hx
      · exact hlt
      · exact hlt.trans (hm x hx)
    · rename_i hle
      refine ⟨fun x hx => ?_, ih hms fun x hx => hnew x (List.mem_cons_of_mem _ hx)⟩
      rcases mem_insertMember.1 hx with rfl | hx
      · exact Nat.lt_of_le_of_ne (Nat.not_lt.1 hle) fun e => hnew m (by simp) (BitVec.eq_of_toNat_eq e)
      · exact hm x hx

/-- The admission of a station that has no entry, where the ring is not CLOSED and the roster has a place (R129). -/
theorem enrol_kept {g : Ring} {e : ServeEntry} {newest : Bool} {n : Nat} (hopen : g.state ≠ .closed)
    (hroom : g.roster.length < 6) (hnew : g.member e.source = none) : RingKept g (g.enrol e newest n) := by
  have hnew : ∀ m ∈ g.roster, m.station ≠ e.source := fun m hm h =>
    List.find?_eq_none.1 hnew m hm (beq_iff_eq.2 h)
  have hpoints : pointsOrdered g → pointsOrdered (g.enrol e newest n) ∧
      ((g.enrol e newest n).tail - (g.enrol e newest n).reclaim).toNat ≤ (g.tail - g.reclaim).toNat := by
    intro hg
    have hmark : ((if newest then g.tail else g.reclaim) - g.reclaim).toNat ≤ (g.tail - g.reclaim).toNat := by
      split
      · exact Nat.le_refl _
      · simp
    obtain ⟨hslots, hheld, hcommit, hmarks⟩ := pointsOrdered_raiseCommit hg hmark
    refine pointsOrdered_recompute (g := { g.raiseCommit (if newest then g.tail else g.reclaim) with
      roster := insertMember _ g.roster }) ⟨hslots, hheld, hcommit, fun m hm => ?_⟩
    rcases mem_insertMember.1 hm with rfl | hm
    · obtain ⟨hslots, hheld, hcommit, -⟩ := hg
      have hdist := raiseCommit_dist (g := g) (q := if newest then g.tail else g.reclaim) (by omega) (by omega)
      change _ ≤ ((g.raiseCommit _).commit - g.reclaim).toNat
      rw [hdist]
      exact Nat.le_max_right _ _
    · exact hmarks m hm
  refine ⟨⟨fun ⟨_, hordered, _, htimer⟩ => ⟨?_, rosterOrdered_insertMember hordered hnew, fun hc => absurd hc hopen, htimer⟩,
    fun _ hg _ => (hpoints (hg hopen)).1⟩, fun _ ho => ho, fun _ hg => ⟨(hpoints hg).2, rfl⟩⟩
  change (insertMember _ g.roster).length ≤ 6
  rw [length_insertMember]
  exact hroom

end Sys2Proof.Machine
end

section
/-! PROOFS. The commands keep the ring records coherent and their points in order: the port and consumer operations do not touch
them, and the ring operations change one record at a time. -/
namespace Sys2Proof.Machine

/-- From `s` to `t` every ring stays coherent, and its points in order, the ring of a validating ADVANCE included. -/
structure RingsKept (s t : State) : Prop where
  coherent : RingsCoherent s → RingsCoherent t
  ordered  : RingsCoherent s → RingPointsOrdered s → RingPointsOrdered t

theorem RingsKept.refl (s : State) : RingsKept s s := ⟨id, fun _ => id⟩

theorem RingsKept.trans {s t u : State} (h : RingsKept s t) (k : RingsKept t u) : RingsKept s u :=
  ⟨fun hs => k.coherent (h.coherent hs), fun hs hp => k.ordered (h.coherent hs) (h.ordered hs hp)⟩

theorem RingsKept.ite {c : Prop} [Decidable c] {s t u : State} (ht : c → RingsKept s t) (hu : ¬ c → RingsKept s u) :
    RingsKept s (if c then t else u) := by split <;> solve_by_elim

theorem RingsKept.foldl {α : Type} {f : State → α → State} (hf : ∀ s x, RingsKept s (f s x)) :
    ∀ (l : List α) (s : State), RingsKept s (l.foldl f s)
  | [], s => .refl s
  | x :: l, s => (hf s x).trans (RingsKept.foldl hf l (f s x))

/-- An ADVANCE that validates in `t` validates in `s`, of the same ring and length. -/
def sameRun (s t : State) : Prop :=
  ∀ run, t.lpc.slot = .advancing run → ∃ first, s.lpc.slot = .advancing first ∧ first.ring = run.ring ∧ first.length = run.length

theorem sameRun_of_eq {s t : State} (h : t.lpc.slot = s.lpc.slot) : sameRun s t := fun run hr => ⟨run, h ▸ hr, rfl, rfl⟩

/-- No ADVANCE validates. -/
def State.noRun (s : State) : Prop := ∀ run, s.lpc.slot ≠ .advancing run

theorem noRun_of_idle {s : State} (h : s.lpc.slot = .idle) : s.noRun := fun _ hr => SlotState.noConfusion (h.symm.trans hr)

/-- Every ring is kept, and no ADVANCE begins. -/
theorem RingsKept.of_rings {s t : State} (hslot : sameRun s t)
    (hring : ∀ r, RingKept (s.ring r) (t.ring r)) : RingsKept s t where
  coherent := by
    intro ⟨hcoherent, hopened⟩
    refine ⟨fun r => (hring r).coherent (hcoherent r), fun run hrun => ?_⟩
    obtain ⟨first, hfirst, hr, -⟩ := hslot run hrun
    rw [← hr]
    exact (hring _).opened (hcoherent _) (hopened first hfirst)
  ordered := by
    intro ⟨hcoherent, hopened⟩ ⟨hpoints, hroom⟩
    refine ⟨fun r => (hring r).points (hcoherent r) (hpoints r), fun run hrun => ?_⟩
    obtain ⟨first, hfirst, hr, hlen⟩ := hslot run hrun
    have hopen := hopened first hfirst
    obtain ⟨hheld, hslots⟩ := (hring first.ring).room hopen (hpoints _ (hopen ▸ by decide))
    have := hroom first hfirst
    rw [← hr, ← hlen, hslots]
    omega

/-- Every ring stays sound, and no ADVANCE validates. -/
theorem RingsKept.of_noRun {s t : State} (hslot : t.noRun)
    (hring : ∀ r, RingSound (s.ring r) (t.ring r)) : RingsKept s t where
  coherent := fun ⟨hcoherent, _⟩ => ⟨fun r => (hring r).coherent (hcoherent r), fun run hrun => absurd hrun (hslot run)⟩
  ordered := fun ⟨hcoherent, _⟩ ⟨hpoints, _⟩ =>
    ⟨fun r => (hring r).points (hcoherent r) (hpoints r), fun run hrun => absurd hrun (hslot run)⟩

theorem RingsKept.of_same {s t : State} (hslot : sameRun s t) (hrings : t.pub.rings = s.pub.rings) : RingsKept s t :=
  .of_rings hslot fun r => by
    rw [show t.ring r = s.ring r from congrArg (·.get r) hrings]
    exact .refl _

/-- A change of one ring, the others as they were. -/
theorem forall_ring_modRing {P : Ring → Ring → Prop} {s : State} {r : RingIdx} {f : Ring → Ring} (hrefl : ∀ g, P g g)
    (h : P (s.ring r) (f (s.ring r))) (q : RingIdx) : P (s.ring q) ((s.modRing r f).ring q) := by
  by_cases hq : q = r
  · rw [hq, ring_modRing_self]
    exact h
  · rw [ring_modRing_ne s f (Ne.symm hq)]
    exact hrefl _

theorem modRing_kept {s : State} {r : RingIdx} {f : Ring → Ring} (h : RingKept (s.ring r) (f (s.ring r))) :
    RingsKept s (s.modRing r f) := .of_rings (sameRun_of_eq rfl) (forall_ring_modRing (P := RingKept) RingKept.refl h)

/-- The command that changes one ring and completes. -/
theorem modRing_finish_kept {s : State} {r : RingIdx} {f : Ring → Ring} {c : ResultCode} {w0 w1 : Word}
    (h : RingSound (s.ring r) (f (s.ring r))) : RingsKept s ((s.modRing r f).finish c w0 w1) :=
  .of_noRun (noRun_of_idle rfl) (forall_ring_modRing (P := RingSound) (fun g => (RingKept.refl g).toRingSound) h)

/-! ### What does not touch the rings -/

theorem ConsumerSide.ringsKept {s t : State} (h : ConsumerSide s t) : RingsKept s t :=
  .of_same (sameRun_of_eq (by rw [h.lpc])) (by rw [h.pub])

theorem post_kept (s : State) (n : Notice) : RingsKept s (s.post n) := (post_consumerSide s n).ringsKept

theorem finish_kept (s : State) (c : ResultCode) (w0 w1 : Word) : RingsKept s (s.finish c w0 w1) :=
  .of_same (fun _ h => nomatch h) rfl

theorem port_kept (s : State) (l : Lpc) (h : l.slot = s.lpc.slot) : RingsKept s { s with lpc := l } :=
  .of_same (sameRun_of_eq h) rfl

theorem link_kept (s : State) (l : Liu) : RingsKept s { s with liu := l } := .of_same (sameRun_of_eq rfl) rfl

theorem readNotice_kept (s : State) : RingsKept s s.readNotice := by
  unfold State.readNotice
  split
  · exact port_kept s _ rfl
  · exact .ite (fun _ => port_kept s _ rfl) fun _ => port_kept s _ rfl

/-- A word judged leaves ring and length of the run (R10). -/
theorem judgeWord_run (s : State) (run : AdvanceRun) :
    (s.judgeWord run).ring = run.ring ∧ (s.judgeWord run).length = run.length := by
  unfold State.judgeWord
  dsimp only
  split
  · exact ⟨rfl, rfl⟩
  · split
    · split <;> exact ⟨rfl, rfl⟩
    · exact ⟨rfl, rfl⟩

theorem judgeWords_run (s : State) : ∀ (n : Nat) (run : AdvanceRun),
    (s.judgeWords n run).ring = run.ring ∧ (s.judgeWords n run).length = run.length
  | 0, run => ⟨rfl, rfl⟩
  | n + 1, run => by
    obtain ⟨hring, hlength⟩ := judgeWords_run s n (s.judgeWord run)
    obtain ⟨hring', hlength'⟩ := judgeWord_run s run
    exact ⟨hring.trans hring', hlength.trans hlength'⟩

@[simp] theorem progressValidation_pub (s : State) : (progressValidation s).pub = s.pub := by
  unfold progressValidation
  split <;> rfl

theorem progressValidation_kept (s : State) : RingsKept s (progressValidation s) := by
  refine .of_same ?_ (by rw [progressValidation_pub])
  unfold progressValidation
  split
  · rename_i first hfirst
    intro run hrun
    obtain ⟨hring, hlength⟩ := judgeWords_run s (Config.validationProgress s.freeIndex) first
    obtain rfl := SlotState.advancing.inj hrun
    exact ⟨first, hfirst, hring.symm, hlength.symm⟩
  · exact sameRun_of_eq rfl

/-! ### Removals and the close of a ring -/

theorem closeRing_kept {s : State} {r : RingIdx} {reason : Byte} (h : ringCoherent (s.ring r) → (s.ring r).state ≠ .opened) :
    RingsKept s (s.closeRing r reason) := by
  refine (progressValidation_kept s).trans (.trans (modRing_kept (close_kept ?_)) (post_kept _ _))
  rwa [ring_congr (progressValidation_pub s)]

theorem removeMember_kept (s : State) (r : RingIdx) (h : Station) (k : NoticeKind) (reason : Byte) :
    RingsKept s (s.removeMember r h k reason) := by
  refine .trans (modRing_kept (dropMember_kept _ h)) (.trans (post_kept _ _) (.ite (fun hc => closeRing_kept fun _ ho => ?_)
    fun _ => .refl _))
  obtain ⟨hwithdrawing, -⟩ := Bool.and_eq_true_iff.1 hc
  exact absurd (ho.symm.trans (beq_iff_eq.1 hwithdrawing)) (by decide)

theorem compareRoster_kept (s : State) (r : RingIdx) (h : Station) (inc : Half) : RingsKept s (s.compareRoster r h inc).1 := by
  unfold State.compareRoster
  split
  · exact .refl s
  · split
    · exact .refl s
    · exact removeMember_kept s r h _ _

theorem member_dropMember (g : Ring) (h : Station) : (g.dropMember h).member h = none :=
  List.find?_eq_none.2 fun m hm hh => by
    obtain ⟨-, hne⟩ := List.mem_filter.1 hm
    exact absurd hh (by simpa using hne)

theorem closeRing_ring (s : State) (r : RingIdx) (reason : Byte) : (s.closeRing r reason).ring r = (s.ring r).close := by
  unfold State.closeRing State.postRing
  rw [ring_congr (post_pub _ _), ring_modRing_self, ring_congr (progressValidation_pub s)]

/-- After a removal the station has no entry. -/
theorem member_removeMember (s : State) (r : RingIdx) (h : Station) (k : NoticeKind) (reason : Byte) :
    ((s.removeMember r h k reason).ring r).member h = none := by
  unfold State.removeMember
  dsimp only
  split
  · rw [closeRing_ring]
    rfl
  · unfold State.postRing
    rw [ring_congr (post_pub _ _), ring_modRing_self]
    exact member_dropMember _ h

/-- A frame that is not from a member is from a station with no entry left (R127). -/
theorem compareRoster_stranger (s : State) (r : RingIdx) (h : Station) (inc : Half) (hf : (s.compareRoster r h inc).2 = false) :
    ((s.compareRoster r h inc).1.ring r).member h = none := by
  revert hf
  unfold State.compareRoster
  split
  · rename_i hnone
    exact fun _ => hnone
  · split
    · exact fun hf => absurd hf (by simp)
    · exact fun _ => member_removeMember s r h _ _

theorem restartSilence_kept (s : State) (r : RingIdx) (h : Station) : RingsKept s (s.restartSilence r h) :=
  modRing_kept (restartMember_kept _ h _)

/-! ### The ring commands -/

theorem refuse_kept (s : State) (c : ResultCode) : RingsKept s (s.refuse c) := finish_kept s c 0 0

theorem ringCoherent_of_not_closed {g : Ring} (hopen : g.state ≠ .closed) (hlength : g.roster.length ≤ Config.rosterPlaces)
    (hordered : rosterOrdered g.roster) (htimer : g.drain.isSome = true → g.state = .withdrawing) : ringCoherent g :=
  ⟨hlength, hordered, fun hc => absurd hc hopen, htimer⟩

theorem opening_sound (g : Ring) (base retain : Word) {count : Word} (h : slotCountOk count) :
    RingSound g (g.opening base count retain) where
  coherent := fun _ => ringCoherent_of_not_closed (by simp [Ring.opening]) (Nat.zero_le _) trivial
    (by simp [Ring.opening])
  points := fun _ _ _ => by
    refine ⟨?_, by simp [Ring.opening], by simp [Ring.opening], by simp [Ring.opening]⟩
    change (count.setWidth 10).toNat ≤ 512
    rcases h with rfl | rfl | rfl | rfl | rfl | rfl <;> decide

theorem takeOpen_kept (ring base count retain : Word) (s : State) : RingsKept s (takeOpen ring base count retain s) := by
  unfold takeOpen
  split
  · exact refuse_kept s _
  · refine .ite (fun _ => refuse_kept s _) fun _ => ?_
    split
    · exact refuse_kept s _
    · rename_i hcheck
      refine modRing_finish_kept (opening_sound _ _ _ ?_)
      by_contra hbad
      exact absurd (hcheck.symm.trans (openCheck_of_bad_fields s (.inl hbad))) (by simp)

/-- The tail set back to a point at or above the commit point (R15). -/
theorem retract_sound {g : Ring} {t : Seq} (hopen : g.state = .opened) (htail : seqUpTo t g.tail = true)
    (hcommit : seqBefore t g.commit = false) :
    RingSound g { g with tail := t, revision := g.revision + 1, announcePending := true } where
  coherent := fun ⟨hlength, hordered, _, htimer⟩ =>
    ringCoherent_of_not_closed (hopen ▸ by decide) hlength hordered htimer
  points := by
    intro _ hg _
    obtain ⟨hslots, hheld, hcommit', hmarks⟩ := hg (hopen ▸ by decide)
    rw [seqUpTo_iff] at htail
    rw [← Bool.not_eq_true, seqBefore_iff] at hcommit
    have hbetween : (g.commit - g.reclaim).toNat ≤ (t - g.reclaim).toNat ∧
        (t - g.reclaim).toNat ≤ (g.tail - g.reclaim).toNat := by
      clear hmarks
      generalize g.slotCount.toNat = n at *
      bv_omega
    exact ⟨hslots, hbetween.2.trans hheld, hbetween.1, hmarks⟩

theorem takeRetract_kept (ring t : Word) (s : State) : RingsKept s (takeRetract ring t s) := by
  unfold takeRetract
  split
  · exact refuse_kept s _
  · refine .ite (fun _ => refuse_kept s _) fun hopen => .ite (fun _ => refuse_kept s _) fun htail =>
      .ite (fun _ => finish_kept s _ _ _) fun hcommit => .ite (fun _ => finish_kept s _ _ _) fun _ =>
        modRing_finish_kept (retract_sound (not_not.1 hopen) ?_ (Bool.eq_false_iff.2 hcommit))
    simpa using htail

theorem withdraw_sound {g : Ring} (hopen : g.state = .opened) :
    RingSound g { g with state := .withdrawing, announcePending := true } where
  coherent := fun ⟨hlength, hordered, _, _⟩ => ringCoherent_of_not_closed (by simp) hlength hordered fun _ => rfl
  points := fun _ hg _ => hg (hopen ▸ by decide)

theorem drain_kept {g : Ring} (h : g.state = .withdrawing) (d : Nat) : RingKept g { g with drain := some d } where
  coherent := fun ⟨hlength, hordered, _, _⟩ => ringCoherent_of_not_closed (h ▸ by decide) hlength hordered fun _ => h
  points := fun _ hg => hg
  opened := fun _ ho => ho
  room := fun _ _ => ⟨Nat.le_refl _, rfl⟩

theorem takeWithdraw_kept (ring drain : Word) (s : State) : RingsKept s (takeWithdraw ring drain s) := by
  unfold takeWithdraw
  split
  · exact refuse_kept s _
  · rename_i r _
    refine .ite (fun _ => refuse_kept s _) fun _ => .ite (fun _ => refuse_kept s _) fun hopen =>
      ?_
    refine .trans (t := (s.modRing r fun g => { g with state := .withdrawing, announcePending := true }).finish .ok
      (s.ring r).tail (BitVec.ofNat 32 (s.ring r).roster.length)) (modRing_finish_kept (withdraw_sound (not_not.1 hopen))) ?_
    have hstate : ((((s.modRing r fun g => { g with state := .withdrawing, announcePending := true }).finish .ok (s.ring r).tail
        (BitVec.ofNat 32 (s.ring r).roster.length))).ring r).state = .withdrawing := by
      rw [ring_finish, ring_modRing_self]
    refine .ite (fun _ => closeRing_kept fun _ ho => ?_) fun _ => modRing_kept (drain_kept hstate _)
    exact absurd (hstate.symm.trans ho) (by decide)

theorem takeRingStatus_kept (ring view : Word) (s : State) : RingsKept s (takeRingStatus ring view s) := by
  unfold takeRingStatus
  split
  · exact refuse_kept s _
  · split
    · exact finish_kept s _ _ _
    · exact refuse_kept s _

/-- An ADVANCE begins to validate on an OPEN ring with the room for its batch (R9). -/
theorem takeAdvance_kept (ring n : Word) (s : State) : RingsKept s (takeAdvance ring n s) := by
  unfold takeAdvance
  split
  · exact refuse_kept s _
  · rename_i r _
    refine .ite (fun _ => refuse_kept s _) fun hopen => .ite (fun _ => refuse_kept s _) fun _ =>
      .ite (fun _ => finish_kept s _ _ _) fun hroom => ⟨fun ⟨hcoherent, _⟩ => ⟨hcoherent, fun run hrun => ?_⟩,
        fun _ ⟨hpoints, _⟩ => ⟨hpoints, fun run hrun => ?_⟩⟩
    · obtain rfl := SlotState.advancing.inj hrun
      exact not_not.1 hopen
    · obtain rfl := SlotState.advancing.inj hrun
      exact Nat.not_lt.1 hroom

theorem advanced_coherent {g : Ring} (n : Nat) (hopen : g.state = .opened) (h : ringCoherent g) : ringCoherent (g.advanced n) := by
  obtain ⟨hlength, hordered, -, htimer⟩ := h
  exact ringCoherent_of_not_closed (hopen ▸ by decide) hlength hordered htimer

theorem advanced_points {g : Ring} {n : Nat} (h : pointsOrdered g)
    (hroom : (g.tail - g.reclaim).toNat + n ≤ g.slotCount.toNat) : pointsOrdered (g.advanced n) := by
  obtain ⟨hslots, hheld, hcommit, hmarks⟩ := h
  have hdist : (g.tail + BitVec.ofNat 32 n - g.reclaim).toNat = (g.tail - g.reclaim).toNat + n := by
    rw [show g.tail + BitVec.ofNat 32 n - g.reclaim = (g.tail - g.reclaim) + BitVec.ofNat 32 n by ring, BitVec.toNat_add,
      BitVec.toNat_ofNat]
    omega
  refine (pointsOrdered_recompute (g := { g with tail := g.tail + BitVec.ofNat 32 n, announcePending := true })
    ⟨hslots, ?_, ?_, hmarks⟩).1
  · rw [hdist]
    exact hroom
  · rw [hdist]
    exact hcommit.trans (Nat.le_add_right _ _)

/-- The batch is published in the room that the ADVANCE found (R12). -/
theorem publish_kept {s : State} {run : AdvanceRun} (hrun : s.lpc.slot = .advancing run) (c : ResultCode) (w0 w1 : Word) :
    RingsKept s ((s.modRing run.ring fun g => g.advanced run.length).finish c w0 w1) := by
  refine ⟨fun ⟨hcoherent, hopened⟩ => ⟨fun q => ?_, fun run hr => absurd hr (noRun_of_idle rfl run)⟩,
    fun ⟨_, hopened⟩ ⟨hpoints, hroom⟩ => ⟨fun q => ?_, fun run hr => absurd hr (noRun_of_idle rfl run)⟩⟩
  · rw [ring_finish]
    exact forall_ring_modRing (P := fun g h => ringCoherent g → ringCoherent h) (fun _ => id)
      (advanced_coherent _ (hopened run hrun)) q (hcoherent q)
  · have hopen : (s.ring run.ring).state ≠ .closed := by
      rw [hopened run hrun]
      decide
    have hadvanced := advanced_points (hpoints _ hopen) (hroom run hrun)
    rw [ring_finish]
    exact forall_ring_modRing (P := fun g h => (g.state ≠ .closed → pointsOrdered g) → h.state ≠ .closed → pointsOrdered h)
      (f := fun g => g.advanced run.length) (fun _ => id) (fun _ _ => hadvanced) q (hpoints q)

theorem writeSequences_consumerSide (g : Ring) (l : List Seq) (s : State) :
    ConsumerSide s (l.foldl (State.writeSequence g) s) :=
  ConsumerSide.foldl (fun s _ => putBytes_consumerSide s _ _) l s

theorem completeAdvance_kept (s : State) : RingsKept s (completeAdvance s) := by
  unfold completeAdvance
  split
  · rename_i run hrun
    split
    · exact finish_kept s _ _ _
    · have hwrite := writeSequences_consumerSide (s.ring run.ring) run.sequences s
      exact hwrite.ringsKept.trans (publish_kept (by rw [hwrite.lpc]; exact hrun) _ _ _)
  · exact .refl s

/-! ### The subscription commands and the local port -/

theorem Acts.ringsKept {s t : State} (h : Acts false s t) : RingsKept s t := h.consumer.ringsKept

theorem takeJoin_kept (w0 w1 w2 w3 : Word) (s : State) : RingsKept s (takeJoin w0 w1 w2 w3 s) := by
  unfold takeJoin
  split
  · refine .ite (fun _ => refuse_kept s _) fun _ => ?_
    split
    · exact finish_kept s _ _ _
    · split
      · exact refuse_kept s _
      · exact .trans (modSub_consumerSide s _ _).ringsKept (.trans (reserveLine_linesOnly _ _).moves.acts.ringsKept
          (.trans (finish_kept _ _ _ _) (claim_cacheSide _ _ _).consumer.ringsKept))
  · exact refuse_kept s _

theorem takeLeave_kept (w0 : Word) (s : State) : RingsKept s (takeLeave w0 s) := by
  have hleave (i : SubIdx) : RingsKept s ((settle ((s.finish .ok 0 0).enterLeaving i)).leaveTest i) :=
    .trans (finish_kept s _ _ _) (.trans (enterLeaving_acts _ _).ringsKept (.trans (settle_acts _).ringsKept
      (leaveTest_acts _ _).ringsKept))
  unfold takeLeave
  split
  · exact refuse_kept s _
  · split
    · exact hleave _
    · exact hleave _
    · exact hleave _
    · exact refuse_kept s _

theorem takeFlushAll_kept (s : State) : RingsKept s (takeFlushAll s) :=
  .trans (finish_kept s _ _ _) (.trans (RingsKept.foldl (fun s i => (addToFlushAll_acts s i).ringsKept) _ _)
    (.trans (.ite (fun _ => (postFlushAll_acts _).ringsKept) fun _ => .refl _)
      (.trans (RingsKept.foldl (fun s i => .trans (flushSub_acts s i false).ringsKept (flushTest_acts _ i).ringsKept) _ _)
        (.trans (lineWaitRound_acts _).ringsKept (.trans (evaluate_acts _ _).ringsKept
          (RingsKept.foldl (fun s i => (finishingTest_acts s i).ringsKept) _ _))))))

theorem takeFlushOne_kept (w0 : Word) (s : State) : RingsKept s (takeFlushOne w0 s) := by
  unfold takeFlushOne
  split
  · exact refuse_kept s _
  · exact .ite (fun _ => .trans (finish_kept s _ _ _) (.trans (flushSub_acts _ _ _).ringsKept
      (.trans (flushTest_acts _ _).ringsKept (.trans (lineWaitRound_acts _).ringsKept (.trans (evaluate_acts _ _).ringsKept
        (finishingTest_acts _ _).ringsKept))))) fun _ => refuse_kept s _

theorem takeFlush_kept (w0 : Word) (s : State) : RingsKept s (takeFlush w0 s) :=
  .ite (fun _ => takeFlushAll_kept s) fun _ => takeFlushOne_kept w0 s

theorem takeDismiss_kept (w0 : Word) (s : State) : RingsKept s (takeDismiss w0 s) := by
  unfold takeDismiss
  split
  · exact refuse_kept s _
  · exact .ite (fun _ => refuse_kept s _) fun _ => .ite (fun _ => finish_kept s _ _ _) fun _ =>
      .trans (modSub_consumerSide s _ _).ringsKept (finish_kept _ _ _ _)

theorem takeSubStatus_kept (w0 view : Word) (s : State) : RingsKept s (takeSubStatus w0 view s) := by
  unfold takeSubStatus
  split
  · exact refuse_kept s _
  · split
    · exact finish_kept s _ _ _
    · exact refuse_kept s _

theorem takeAccept_kept (k : Word) (s : State) : RingsKept s (takeAccept k s) :=
  .ite (fun _ => refuse_kept s _) fun h =>
    .trans (Act.accept k.toNat (Nat.le_of_not_lt h)).acts.ringsKept (.trans (finish_kept _ _ _ _) (deliverAll_acts _).ringsKept)

theorem takeRetire_kept (w0 seq : Word) (s : State) : RingsKept s (takeRetire w0 seq s) := by
  unfold takeRetire
  split
  · exact refuse_kept s _
  · exact .ite (fun _ => refuse_kept s _) fun _ => .ite (fun _ => finish_kept s _ _ _) fun h =>
      .trans (mapBlocks_consumerSide s _).ringsKept (.trans (modSub_consumerSide _ _ _).ringsKept
        (.trans (finish_kept _ _ _ _) (.trans (blockGrantRound_acts _).ringsKept
          (.trans (deliverAll_acts _).ringsKept (batchTest_acts _ _).ringsKept))))

theorem takeStart_kept (s : State) : RingsKept s (takeStart s) :=
  .ite (fun _ => refuse_kept s _) fun _ => .of_same (fun _ h => nomatch h) rfl

theorem takeCommand_kept (s : State) : RingsKept s s.takeCommand := by
  unfold State.takeCommand
  split
  · exact takeStart_kept s
  · exact takeOpen_kept _ _ _ _ s
  · exact takeAdvance_kept _ _ s
  · exact takeRetract_kept _ _ s
  · exact takeWithdraw_kept _ _ s
  · exact takeRingStatus_kept _ _ s
  · exact takeJoin_kept _ _ _ _ s
  · exact takeLeave_kept _ s
  · exact takeFlush_kept _ s
  · exact takeDismiss_kept _ s
  · exact takeSubStatus_kept _ _ s
  · exact takeAccept_kept _ s
  · exact takeRetire_kept _ _ s
  · exact refuse_kept s _

theorem goWrite_kept (s : State) : RingsKept s s.goWrite :=
  .ite (fun _ => .refl s) fun _ => .ite (fun _ => refuse_kept s _) fun _ => .ite (fun _ => refuse_kept s _) fun _ =>
    takeCommand_kept s

theorem writeArg_kept (s : State) (k : Nat) (w : Word) : RingsKept s (s.writeArg k w) := by
  unfold State.writeArg
  split
  · exact port_kept s _ rfl
  · exact port_kept s _ rfl
  · exact port_kept s _ rfl
  · exact port_kept s _ rfl
  · exact .refl s

theorem writeCmd_kept (s : State) (c : Byte) : RingsKept s (s.writeCmd c) := port_kept s _ rfl

theorem withLd_kept (s : State) (w : Word) : RingsKept s (s.withLd w) := port_kept s _ rfl

theorem issue_kept (s : State) (code : Byte) (args : List Word) : RingsKept s (s.issue code args) :=
  .ite (fun _ => .refl s) fun _ =>
    .trans (RingsKept.foldl (fun s (p : Word × Nat) => writeArg_kept s p.2 p.1) _ s) (.trans (writeCmd_kept _ _) (goWrite_kept _))

theorem captureStartWord_kept (s : State) (la : Half) : RingsKept s (s.captureStartWord la) := by
  unfold State.captureStartWord
  split
  · exact .ite (fun _ => .of_same (fun _ h => nomatch h) rfl) fun _ => .refl s
  · exact .refl s

/-! ### The link, the timers and the frames -/

theorem modTag_kept (s : State) (t : TagIdx) (f : Tag → Tag) : RingsKept s (s.modTag t f) :=
  .of_same (sameRun_of_eq rfl) rfl

theorem keepaliveAtRequest_kept (s : State) (b : Binding) : RingsKept s (s.keepaliveAtRequest b) :=
  .ite (fun _ => (modSub_consumerSide _ _ _).ringsKept) fun _ => .refl s

theorem win_kept (s : State) (o : Offer) : RingsKept s (s.win o) := by
  unfold State.win
  split
  · exact link_kept s _
  · exact .trans (modRing_kept (announced_kept _)) (link_kept _ _)
  · exact .trans (modSub_consumerSide s _ _).ringsKept (.trans (link_kept _ _) (modSub_consumerSide _ _ _).ringsKept)
  · exact link_kept s _
  · rename_i t b
    exact .trans (t := { s with rqt := { s.rqt with queue := s.rqt.queue.drop 1 } }) (.of_same (sameRun_of_eq rfl) rfl)
      (.trans (modTag_kept _ _ _) (.trans (keepaliveAtRequest_kept _ _) (runGrants_cacheSide _).consumer.ringsKept))

theorem placeOneOff_kept (s : State) (f : Frame) : RingsKept s (s.placeOneOff f) := (placeOneOff_consumerSide s f).ringsKept

theorem helloAtRing_kept (h : Station) (s : State) (r : RingIdx) : RingsKept s (State.helloAtRing h s r) :=
  .ite (fun _ => removeMember_kept s r h _ _) fun _ => .refl s

/-! ### The serve engine -/

theorem placeRefuse_kept (s : State) (e : ServeEntry) (why : Refused) : RingsKept s (s.placeRefuse e why) := link_kept s _

theorem judgeJoin_kept (s : State) (e : ServeEntry) (newest member : Bool)
    (hnew : member = false → (s.ring e.ring).member e.source = none) : RingsKept s (s.judgeJoin e newest member) :=
  .ite (fun _ => placeRefuse_kept s e _) fun hopen =>
    .ite (fun _ => .trans (restartSilence_kept s _ _) (link_kept _ _)) fun hmember =>
      .ite (fun _ => placeRefuse_kept s e _) fun _ => .ite (fun hroom =>
        .trans (modRing_kept (enrol_kept hopen hroom (hnew (Bool.eq_false_iff.2 hmember)))) (.trans (post_kept _ _) (link_kept _ _)))
          fun _ => placeRefuse_kept s e _

/-- What is served lies at or below the tail (R147). -/
theorem servedCount_le {g : Ring} {first : Seq} {count served : Nat} (h : g.servedCount first count = some served)
    (hheld : (g.tail - g.reclaim).toNat ≤ 512) (hserved : served ≠ 0) :
    (first + BitVec.ofNat 32 served - g.reclaim).toNat ≤ (g.tail - g.reclaim).toNat := by
  unfold Ring.servedCount at h
  dsimp only at h
  split at h
  · exact absurd h (by simp)
  · split at h
    · obtain rfl := Option.some.inj h
      rw [show first + BitVec.ofNat 32 (min count ((g.tail - g.reclaim).toNat - (first - g.reclaim).toNat)) - g.reclaim =
        (first - g.reclaim) + BitVec.ofNat 32 (min count ((g.tail - g.reclaim).toNat - (first - g.reclaim).toNat)) by ring,
        BitVec.toNat_add, BitVec.toNat_ofNat]
      omega
    · exact absurd (Option.some.inj h).symm hserved

theorem judgeFetch_kept (s : State) (e : ServeEntry) (first : Seq) (count : Nat) : RingsKept s (s.judgeFetch e first count) := by
  unfold State.judgeFetch
  split
  · exact placeRefuse_kept s e _
  · rename_i served hserved
    unfold State.listing
    dsimp only
    refine .trans (t := if served = 0 then s else s.modRing e.ring fun g => g.raiseCommit (first + BitVec.ofNat 32 served)) ?_
      (.trans (restartSilence_kept _ _ _) (link_kept _ _))
    refine .ite (fun _ => .refl s) fun hne => modRing_kept (raiseCommit_kept _ _ fun ⟨hslots, hheld, _⟩ => ?_)
    exact servedCount_le hserved (hheld.trans hslots) hne

theorem judgePull_kept (s : State) (e : ServeEntry) (q : Seq) (k n : Nat) : RingsKept s (s.judgePull e q k n) :=
  .ite (fun _ => .trans (restartSilence_kept s _ _) (link_kept _ _)) fun _ => placeRefuse_kept s e _

theorem judge_kept (s : State) (e : ServeEntry) (member : Bool)
    (hnew : member = false → (s.ring e.ring).member e.source = none) : RingsKept s (s.judge e member) := by
  unfold State.judge
  split
  · exact judgeJoin_kept s e _ member hnew
  · split
    · exact placeRefuse_kept s e _
    · exact judgeFetch_kept s e _ _
  · split
    · exact placeRefuse_kept s e _
    · exact judgePull_kept s e _ _ _

theorem serve_kept (s : State) (e : ServeEntry) : RingsKept s (s.serve e) :=
  .trans (.of_same (t := { s with pub := { s.pub with serveQueue := s.pub.serveQueue.drop 1 } }) (sameRun_of_eq rfl) rfl)
    (.trans (compareRoster_kept _ _ _ _) (judge_kept _ e _ (compareRoster_stranger _ _ _ _)))

/-! ### The commands -/

/-- `r` answers a state in which the rings are kept. -/
def KeepsRings (s : State) (r : Result) : Prop := ∀ t, r = .next t → RingsKept s t

theorem KeepsRings.next {s t : State} (h : RingsKept s t) : KeepsRings s (.next t) :=
  fun _ e => Host.Outcome.next.inj e ▸ h

theorem KeepsRings.stay (s : State) : KeepsRings s (.next s) := .next (.refl s)

theorem KeepsRings.ite {c : Prop} [Decidable c] {s : State} {r q : Result} (hr : c → KeepsRings s r)
    (hq : ¬ c → KeepsRings s q) : KeepsRings s (if c then r else q) := by split <;> solve_by_elim

/-- A command of the consumer's side. -/
theorem Proceeds.keepsRings {s : State} {r : Result} (h : Proceeds false s r) : KeepsRings s r := by
  obtain ⟨t, rfl, hacts⟩ := h
  exact .next hacts.ringsKept

theorem execRegisterWrite_keepsRings (alsoRead : Bool) (la : Half) (ld : Word) (s : State) :
    KeepsRings s (execRegisterWrite alsoRead la ld s) := by
  refine .ite (fun _ => .next (withLd_kept s 0)) fun _ => .ite (fun _ => .stay s) fun _ => ?_
  split
  · exact .next (writeCmd_kept s _)
  · exact .next (writeArg_kept s _ _)
  · exact .next (writeArg_kept s _ _)
  · exact .next (writeArg_kept s _ _)
  · exact .next (writeArg_kept s _ _)
  · exact .next (goWrite_kept s)
  · exact .stay s

theorem execLocalMemoryAccess_keepsRings (lrd lwr : Bool) (la : Half) (ld : Word) (s : State) :
    KeepsRings s (execLocalMemoryAccess lrd lwr la ld s) := by
  refine .ite (fun _ => .next (.ite (fun _ => withLd_kept s 0) fun _ => .refl s)) fun _ => ?_
  split
  · exact .next (withLd_kept s _)
  · exact .next (withLd_kept s _)
  · exact .next (.trans (captureStartWord_kept s la) (.trans (progressValidation_kept _)
      (putBytes_consumerSide _ _ _).ringsKept))
  · exact .stay s

theorem execArbitration_keepsRings (others : List Byte) (s : State) : KeepsRings s (execArbitration others s) := by
  unfold execArbitration
  split
  · exact .next (link_kept s _)
  · exact .ite (fun _ => .next (.trans (win_kept s _) (link_kept _ _))) fun _ => .next (link_kept s _)

theorem execSilenceExpiry_keepsRings (r : RingIdx) (h : Station) (s : State) : KeepsRings s (execSilenceExpiry r h s) := by
  unfold execSilenceExpiry
  split
  · exact .stay s
  · exact .ite (fun _ => .next (.trans (placeOneOff_kept s _) (removeMember_kept _ r h _ _))) fun _ => .stay s

/-- A drain timer runs in WITHDRAWING alone, so its expiry closes no OPEN ring. -/
theorem execDrainExpiry_keepsRings (r : RingIdx) (s : State) : KeepsRings s (execDrainExpiry r s) := by
  refine .ite (fun hdue => .next (closeRing_kept fun ⟨_, _, _, htimer⟩ ho => ?_)) fun _ => .stay s
  have hdrain := htimer (by rw [(Timer.due_iff _).1 hdue]; rfl)
  exact absurd (ho.symm.trans hdrain) (by decide)

theorem execLeaveFrame_keepsRings (a : Arrival) (s : State) : KeepsRings s (execLeaveFrame a s) := by
  refine .ite (fun _ => .ite (fun _ => .stay s) fun _ => .ite (fun _ => .stay s) fun _ => ?_) fun _ => .stay s
  have hcompare := compareRoster_kept s (ringOfField a.header.ring) a.header.source a.header.incarnation
  split
  · rename_i t ht
    rw [ht] at hcompare
    exact .next (hcompare.trans (removeMember_kept _ _ _ _ _))
  · rename_i t ht
    rw [ht] at hcompare
    exact .next hcompare

theorem execReleaseFrame_keepsRings (a : Arrival) (s : State) : KeepsRings s (execReleaseFrame a s) := by
  refine .ite (fun _ => .ite (fun _ => .stay s) fun _ => ?_) fun _ => .stay s
  have hcompare := compareRoster_kept s (ringOfField a.header.ring) a.header.source a.header.incarnation
  split
  · rename_i t ht
    rw [ht] at hcompare
    exact .next (hcompare.trans (.trans (modRing_kept (adoptMark_kept _ _ _)) (restartSilence_kept _ _ _)))
  · rename_i t ht
    rw [ht] at hcompare
    exact .next (hcompare.trans (placeOneOff_kept _ _))

theorem execServeJoin_keepsRings (s : State) : KeepsRings s (execServeJoin s) := by
  unfold execServeJoin
  split
  · exact .stay s
  · split
    · exact .next (serve_kept s _)
    · exact .stay s

theorem execServeFetch_keepsRings (s : State) : KeepsRings s (execServeFetch s) := by
  unfold execServeFetch
  split
  · exact .stay s
  · split
    · exact .next (serve_kept s _)
    · exact .stay s

theorem execServePull_keepsRings (s : State) : KeepsRings s (execServePull s) := by
  unfold execServePull
  split
  · exact .stay s
  · split
    · exact .next (serve_kept s _)
    · exact .stay s

/-- The rings and the slot after a reset. -/
theorem restarted_kept (s : State) (l : Lpc) (m : Memory) (p : List Instr) (n : Nat) (hl : l.slot = .idle) :
    RingsKept s (State.restarted l m p n) := by
  refine .of_noRun (noRun_of_idle hl) fun r => ?_
  have hreset : (State.restarted l m p n).ring r = Ring.reset := by
    simp [State.ring, State.restarted, State.reset, Pub.reset, Vector.get_eq_getElem]
  rw [hreset]
  exact ⟨fun _ => ⟨Nat.zero_le _, trivial, fun _ => ⟨rfl, rfl, rfl⟩, fun hd => absurd hd (by simp [Ring.reset])⟩,
    fun _ _ hh => absurd rfl hh⟩

theorem completeStart_kept (s : State) : RingsKept s (completeStart s) := by
  unfold completeStart
  split
  · dsimp only
    split
    · exact finish_kept s _ _ _
    · exact .of_same (fun _ h => nomatch h) (by rw [State.startUp, finish_pub, placeOneOff_pub])
  · exact .refl s

theorem exec_keepsRings (c : Instr) (s : State) : KeepsRings s (exec c s) := by
  cases c with
  | reset p => exact .next (restarted_kept s _ _ _ _ rfl)
  | resetRelease st br => exact .ite (fun _ => .next (restarted_kept s _ _ _ _ rfl)) fun _ => .stay s
  | startCompletion => exact .next (completeStart_kept s)
  | start => exact .next (issue_kept s _ _)
  | openRing w0 w1 w2 w3 => exact .next (issue_kept s _ _)
  | advance w0 w1 => exact .next (issue_kept s _ _)
  | advanceCompletion => exact .next (completeAdvance_kept s)
  | retract w0 w1 => exact .next (issue_kept s _ _)
  | withdraw w0 w1 => exact .next (issue_kept s _ _)
  | ringStatus w0 w1 => exact .next (issue_kept s _ _)
  | join w0 w1 w2 w3 => exact .next (issue_kept s _ _)
  | leave w0 => exact .next (issue_kept s _ _)
  | flush w0 => exact .next (issue_kept s _ _)
  | flushAll => exact .next (issue_kept s _ _)
  | dismiss w0 => exact .next (issue_kept s _ _)
  | subStatus w0 w1 => exact .next (issue_kept s _ _)
  | accept w0 => exact .next (issue_kept s _ _)
  | retire w0 w1 => exact .next (issue_kept s _ _)
  | undefinedCommandCode code => exact .next (issue_kept s _ _)
  | registerWrite alsoRead la ld => exact execRegisterWrite_keepsRings alsoRead la ld s
  | ntc0Read alsoWrite =>
    exact .ite (fun _ => .next (withLd_kept s 0)) fun _ => .ite (fun _ => .next (withLd_kept s 0)) fun _ =>
      .next (readNotice_kept s)
  | localMemoryAccess lrd lwr la ld => exact execLocalMemoryAccess_keepsRings lrd lwr la ld s
  | arbitration others => exact execArbitration_keepsRings others s
  | silenceExpiry r h => exact execSilenceExpiry_keepsRings r h s
  | drainExpiry r => exact execDrainExpiry_keepsRings r s
  | helloRosterRemoval a => exact .ite (fun _ => .next (RingsKept.foldl (helloAtRing_kept _) _ s)) fun _ => .stay s
  | requestFrame k a =>
    exact .ite (fun _ => .ite (fun _ => .next (.of_same (sameRun_of_eq rfl) rfl)) fun _ => .stay s) fun _ => .stay s
  | leaveFrame a => exact execLeaveFrame_keepsRings a s
  | releaseFrame a => exact execReleaseFrame_keepsRings a s
  | serveJoin => exact execServeJoin_keepsRings s
  | serveFetch => exact execServeFetch_keepsRings s
  | servePull => exact execServePull_keepsRings s
  | tagGrant => exact .next (getD_acts fun t h => (grantOnce_moves s t h).acts).ringsKept
  | retryLineMove => exact .next (getD_acts fun t h => (moveRetryOnce_moves s t h).acts).ringsKept
  | keepaliveExpiry i => exact .ite (fun _ => .next (modSub_consumerSide s _ _).ringsKept) fun _ => .stay s
  | helloFrame a =>
    exact .ite (fun _ => .next (.trans (post_kept s _) (.trans (RingsKept.foldl
      (fun s i => (forcedEnd_consumerSide s i .restarted).ringsKept) _ _) (settle_consumerSide _).ringsKept))) fun _ => .stay s
  | deadlineExpiry t => exact (execDeadlineExpiry_proceeds t s).keepsRings
  | pollExpiry i => exact (execPollExpiry_proceeds i s).keepsRings
  | announceFrame a => exact (execAnnounceFrame_proceeds a s).keepsRings
  | evictFrame a => exact (execEvictFrame_proceeds a s).keepsRings
  | welcomeFrame a => exact (execWelcomeFrame_proceeds a s).keepsRings
  | refuseFrame a => exact (execRefuseFrame_proceeds a s).keepsRings
  | listingFrame a => exact (execListingFrame_proceeds a s).keepsRings
  | payloadFrame a => exact (execPayloadFrame_proceeds a s).keepsRings
  | pullStart => exact (execPullStart_proceeds s).keepsRings
  | chunkIssue => exact (execChunkIssue_proceeds s).keepsRings
  | blockGrantRound => exact .next (.trans (blockGrantRound_acts s).ringsKept (deliverAll_acts _).ringsKept)
  | lineWaitRound => exact .next (lineWaitRound_acts s).ringsKept
  | delivery => exact .next (getD_acts fun t h => (deliverOnce_moves s t h).acts).ringsKept

theorem countDown_ring (s : State) (r : RingIdx) : s.countDown.ring r = (s.ring r).tick := mapTable_get _ _ _

theorem tick_ringsKept (s : State) : RingsKept s (tick s) :=
  .ite (fun _ => .trans (t := s.countDown) (.of_rings (sameRun_of_eq rfl) fun r => countDown_ring s r ▸ tick_kept _)
    (.of_same (sameRun_of_eq rfl) rfl)) fun _ => .refl s

theorem step_ringsKept {s t : State} (h : step s = .next t) : RingsKept s t := by
  unfold step at h
  split at h
  · rename_i rest _
    exact .trans (t := { s with pending := rest }) (.of_same (sameRun_of_eq rfl) rfl) (exec_keepsRings _ _ t h)
  · obtain rfl := Host.Outcome.next.inj h
    exact tick_ringsKept s

/-- Settles O55. -/
theorem stepKeepsRingsCoherent : Obligations.StepKeepsRingsCoherent :=
  ⟨fun _ _ hs hstep => (step_ringsKept hstep).coherent hs,
    fun _ _ ⟨hs, hp⟩ hstep => ⟨(step_ringsKept hstep).coherent hs, (step_ringsKept hstep).ordered hs hp⟩⟩

end Sys2Proof.Machine
end

section
/-! PROOFS. The receive filter (section 8.5, R167, R194): what it accepts, and that a frame it discards changes nothing. -/
namespace Sys2Proof.Machine

/-! ### The record that names a producer and ring -/

theorem findSub_eq_some {s : State} {p : Station} {r : RingIdx} {i : SubIdx} (h : s.findSub p r = some i) :
    (s.sub i).state ≠ .free ∧ (s.sub i).producer = p ∧ (s.sub i).ring = r := by
  have := List.find?_some h
  simpa [Bool.and_eq_true, and_assoc] using this

theorem findSub_eq_none {s : State} {p : Station} {r : RingIdx} : s.findSub p r = none ↔
    ∀ i, (s.sub i).state = .free ∨ (s.sub i).producer ≠ p ∨ (s.sub i).ring ≠ r := by
  unfold State.findSub
  rw [List.find?_eq_none]
  refine forall_congr' fun i => ?_
  simp only [List.mem_finRange, true_implies, Bool.and_eq_true, bne_iff_ne, beq_iff_eq, not_and_or, ne_eq, not_not, or_assoc]

theorem ring_eq_ringOfField (r : RingIdx) (f : BitVec 3) : r = ringOfField f ↔ r.val = f.toNat := by
  rw [Fin.ext_iff]
  rfl

/-! ### The form of a frame (R194) -/

theorem arbitrationKey_toNat (k : FrameKind) (source : Station) :
    (arbitrationKey k source).toNat = 32 * kindClass k + source.toNat := by
  unfold arbitrationKey
  have := source.isLt
  rw [BitVec.toNat_ofNat]
  cases k <;> simp only [kindClass] <;> omega

theorem flags_clear_iff (fl : Byte) : fl.extractLsb' 2 6 = 0 ↔ fl.toNat < 4 := by
  rw [← BitVec.toNat_inj, BitVec.extractLsb'_toNat]
  have := fl.isLt
  rw [Nat.shiftRight_eq_div_pow]
  simp only [BitVec.ofNat_eq_ofNat, BitVec.toNat_ofNat]
  omega

/-- Check 7, image by image. -/
theorem imagesFormed_iff (l : List (Image × Byte)) : ∀ first : Seq, imagesFormed first l = true ↔
    ∀ (n : Nat) (im : Image) (fl : Byte), l[n]? = some (im, fl) →
      im.seq = first + BitVec.ofNat 32 n ∧ im.length.toNat ≤ 4096 ∧ fl.toNat < 4 := by
  induction l with
  | nil => simp [imagesFormed]
  | cons x rest ih =>
    intro first
    obtain ⟨im, fl⟩ := x
    have hseq (n : Nat) : first + 1 + BitVec.ofNat 32 n = first + BitVec.ofNat 32 (n + 1) := by
      rw [BitVec.ofNat_add, BitVec.add_assoc, BitVec.add_comm 1]
      rfl
    simp only [imagesFormed, Bool.and_eq_true, beq_iff_eq, decide_eq_true_eq, flags_clear_iff, ih]
    constructor
    · rintro ⟨⟨⟨hs, hl⟩, hf⟩, hrest⟩ n im' fl' hn
      cases n with
      | zero =>
        obtain ⟨rfl, rfl⟩ := Prod.mk.inj (Option.some.inj hn)
        exact ⟨by simpa using hs, hl, hf⟩
      | succ n =>
        rw [← hseq]
        exact hrest n im' fl' hn
    · intro h
      obtain ⟨hs, hl, hf⟩ := h 0 im fl rfl
      refine ⟨⟨⟨by simpa using hs, hl⟩, hf⟩, fun n im' fl' hn => ?_⟩
      rw [hseq]
      exact h (n + 1) im' fl' hn

theorem within_iff (n lo hi : Nat) : within n lo hi = true ↔ lo ≤ n ∧ n ≤ hi := by
  simp [within]

theorem wellFormedArrival_iff (k : FrameKind) (a : Arrival) : wellFormedArrival k a = true ↔ wellFormed k a := by
  unfold wellFormedArrival wellFormed
  simp only [Bool.and_eq_true, decide_eq_true_eq, beq_iff_eq, ← arbitrationKey_toNat, BitVec.toNat_inj, and_assoc]
  cases k <;> simp [kindBroadcast, bodyLength, kindFormed, within_iff, imagesFormed_iff, and_assoc]

theorem filterKind_iff (s : State) (k : FrameKind) (h : Header) : s.filterKind k h = true ↔
    (k = .announce → ∃ i, (s.sub i).state ≠ .free ∧ (s.sub i).producer = h.source ∧ (s.sub i).ring.val = h.ring.toNat) ∧
    (k ≠ .hello → k ≠ .announce → h.dest = s.lpc.stationNumber) := by
  have hfind : (s.findSub h.source (ringOfField h.ring)).isSome = true ↔
      ∃ i, (s.sub i).state ≠ .free ∧ (s.sub i).producer = h.source ∧ (s.sub i).ring.val = h.ring.toNat := by
    rw [Option.isSome_iff_ne_none, ne_eq, findSub_eq_none]
    simp only [not_forall, not_or, ring_eq_ringOfField, ne_eq, not_not]
  cases k <;> simp [State.filterKind, hfind]

theorem receiveFilter : Part.ReceiveFilter := by
  intro s k a
  unfold State.accepts State.running
  simp only [Bool.and_eq_true, beq_iff_eq, bne_iff_ne, wellFormedArrival_iff, filterKind_iff, and_assoc, ne_eq]

/-! ### What the filter discards -/

theorem discardedFrameChangesNothing : Part.DiscardedFrameChangesNothing := by
  intro c k a s harrival hdiscarded
  have hskip {r : Result} {k' : FrameKind} {a' : Arrival} (h : some (k', a') = some (k, a)) :
      (if s.accepts k' a' then r else .next s) = .next s := by
    obtain ⟨rfl, rfl⟩ := Prod.mk.inj (Option.some.inj h)
    rw [if_neg (Bool.eq_false_iff.1 hdiscarded)]
  cases c with
  | helloFrame a => exact hskip harrival
  | helloRosterRemoval a => exact hskip harrival
  | announceFrame a => exact hskip harrival
  | requestFrame kind a => cases kind <;> exact hskip harrival
  | leaveFrame a => exact hskip harrival
  | releaseFrame a => exact hskip harrival
  | evictFrame a => exact hskip harrival
  | welcomeFrame a => exact hskip harrival
  | refuseFrame a => exact hskip harrival
  | listingFrame a => exact hskip harrival
  | payloadFrame a => exact hskip harrival
  | _ => exact absurd harrival (by simp [Instr.arrival])

/-- Settles O32. -/
theorem receiveFilterDecides : Obligations.ReceiveFilterDecides := ⟨receiveFilter, discardedFrameChangesNothing⟩

end Sys2Proof.Machine
end

section
/-! PROOFS. The engines with nothing to do, and the station before START (R170, R173, R174): until START has taken it to
RUNNING every unit but LPC and SMC stays at its reset values. -/
namespace Sys2Proof.Machine

/-! ### Rounds that change nothing -/

theorem foldl_stays {α : Type} {f : State → α → State} {s : State} : ∀ {l : List α}, (∀ x ∈ l, f s x = s) → l.foldl f s = s
  | [], _ => rfl
  | x :: l, h => by
    rw [List.foldl_cons, h x (by simp), foldl_stays fun y hy => h y (List.mem_cons_of_mem _ hy)]

theorem repeatWhile_stays {f : State → Option State} {s : State} (h : f s = none) : ∀ n, repeatWhile f n s = s
  | 0 => rfl
  | n + 1 => by unfold repeatWhile; rw [h]

theorem moveRetryOnce_none {s : State} (h : s.rqt.retryLine = []) : moveRetryOnce s = none := by
  unfold moveRetryOnce
  rw [h]

theorem nextClaimant_none {s : State} (h : ∀ i, (s.sub i).claims = []) : s.nextClaimant = none :=
  List.find?_eq_none.2 fun i _ => by simp [h i]

theorem grantOnce_none {s : State} (h : ∀ i, (s.sub i).claims = []) : grantOnce s = none := by
  unfold grantOnce
  rw [nextClaimant_none h]
  split
  · split
    · rename_i heq
      exact nomatch heq
    · rfl
  · rfl

/-- With no claim waiting and no retry, no tag is granted and none moves. -/
theorem runGrants_stays {s : State} (hclaims : ∀ i, (s.sub i).claims = []) (hretry : s.rqt.retryLine = []) : runGrants s = s := by
  unfold runGrants
  rw [repeatWhile_stays (moveRetryOnce_none hretry), repeatWhile_stays (grantOnce_none hclaims)]

theorem blockGrantTurn_stays {s : State} {i : SubIdx} (h : ∀ q c, (s.sub i).blockWait = some (q, c) → s.freeBlocks < c) :
    blockGrantTurn s i = s := by
  unfold blockGrantTurn
  split
  · rfl
  · rename_i q need hwait
    rw [if_neg (Nat.not_le.2 (h q need hwait))]

/-- A subscription in block wait whose need exceeds the FREE blocks is passed over (R90). -/
theorem blockGrantRound_stays {s : State} (h : ∀ i q c, (s.sub i).blockWait = some (q, c) → s.freeBlocks < c) :
    Machine.blockGrantRound s = s :=
  foldl_stays fun i _ => blockGrantTurn_stays (h i)

theorem nextDelivery_none {s : State} (h : ∀ i, s.deliverable i = false) : s.nextDelivery = none := by
  unfold State.nextDelivery
  split
  · exact List.find?_eq_none.2 fun i _ => by simp [h i]
  · rfl

theorem deliverOnce_none {s : State} (h : ∀ i, s.deliverable i = false) : deliverOnce s = none := by
  unfold deliverOnce
  rw [nextDelivery_none h]

theorem deliverAll_stays {s : State} (h : ∀ i, s.deliverable i = false) : deliverAll s = s :=
  repeatWhile_stays (deliverOnce_none h) _

theorem lineWaitTurn_stays {s : State} {i : SubIdx} (h : s.spareLines = 0 ∨ (s.sub i).lineWait = false) :
    lineWaitTurn s i = s := by
  unfold lineWaitTurn
  rw [if_neg]
  rcases h with h | h <;> simp [h]

/-- Without a spare line, or with no subscription in line wait, the line wait round changes nothing (R66). -/
theorem lineWaitRound_stays {s : State} (h : s.spareLines = 0 ∨ ∀ i, (s.sub i).lineWait = false) :
    Machine.lineWaitRound s = s :=
  foldl_stays fun i _ => lineWaitTurn_stays (h.imp_right fun h => h i)

theorem nextTurn_none {s : State} (h : ∀ i, (s.sub i).consuming = false) : s.nextTurn = none :=
  List.find?_eq_none.2 fun i _ => by simp [Sub.ready, h i]

/-! ### The state before START -/

/-- Every unit but LPC and SMC holds its reset values, nothing is configured, and no notice is queued (R174). -/
structure State.unstarted (s : State) : Prop where
  liu     : s.liu = .reset
  pub     : s.pub = .reset
  subs    : s.subs = Vector.replicate 24 (Sub.fresh 0)
  dpc     : s.dpc = .reset
  rqt     : s.rqt = .reset
  pdu     : s.pdu = .reset
  config  : s.lpc.config = .absent
  notices : s.lpc.notices = []
  lost    : s.lpc.lost = false
  idle    : s.noRun

theorem quietUntilStart_iff (s : State) : QuietUntilStart s ↔
    (s.lpc.state ≠ .running → s.unstarted) ∧ (s.lpc.state = .reset → s.lpc = .reset) :=
  and_congr_left' (imp_congr_right fun _ =>
    ⟨fun ⟨a, b, c, d, e, f, g, h, i, j⟩ => ⟨a, b, c, d, e, f, g, h, i, j⟩,
      fun ⟨a, b, c, d, e, f, g, h, i, j⟩ => ⟨a, b, c, d, e, f, g, h, i, j⟩⟩)

theorem State.unstarted.sub {s : State} (h : s.unstarted) (i : SubIdx) : s.sub i = Sub.fresh 0 := by
  unfold State.sub
  rw [h.subs]
  simp [Vector.get_eq_getElem]

theorem State.unstarted.tag {s : State} (h : s.unstarted) (t : TagIdx) : (s.tag t).bound = none := by
  unfold State.tag
  rw [h.rqt]
  simp [Rqt.reset, Vector.get_eq_getElem]

theorem State.unstarted.ring {s : State} (h : s.unstarted) (r : RingIdx) : s.ring r = Ring.reset := by
  unfold State.ring
  rw [h.pub]
  simp [Pub.reset, Vector.get_eq_getElem]

theorem State.unstarted.deliverable {s : State} (h : s.unstarted) (i : SubIdx) : s.deliverable i = false := by
  unfold State.deliverable
  rw [h.sub]
  rfl

/-- `t` differs from `s` in LPC, station memory and the count of free values at most, and in LPC not in what the units read. -/
structure PortOnly (s t : State) : Prop where
  liu     : t.liu = s.liu
  pub     : t.pub = s.pub
  subs    : t.subs = s.subs
  dpc     : t.dpc = s.dpc
  rqt     : t.rqt = s.rqt
  pdu     : t.pdu = s.pdu
  config  : t.lpc.config = s.lpc.config
  notices : t.lpc.notices = s.lpc.notices
  lost    : t.lpc.lost = s.lpc.lost
  state   : t.lpc.state = s.lpc.state
  idle    : s.noRun → t.noRun
  inReset : s.lpc = .reset → t.lpc = .reset

theorem PortOnly.refl (s : State) : PortOnly s s := ⟨rfl, rfl, rfl, rfl, rfl, rfl, rfl, rfl, rfl, rfl, id, id⟩

theorem PortOnly.trans {s t u : State} (h : PortOnly s t) (k : PortOnly t u) : PortOnly s u :=
  ⟨k.liu.trans h.liu, k.pub.trans h.pub, k.subs.trans h.subs, k.dpc.trans h.dpc, k.rqt.trans h.rqt, k.pdu.trans h.pdu,
    k.config.trans h.config, k.notices.trans h.notices, k.lost.trans h.lost, k.state.trans h.state,
    fun hs => k.idle (h.idle hs), fun hs => k.inReset (h.inReset hs)⟩

theorem PortOnly.foldl {α : Type} {f : State → α → State} (hf : ∀ s x, s.lpc.state ≠ .reset → PortOnly s (f s x)) :
    ∀ (l : List α) (s : State), s.lpc.state ≠ .reset → PortOnly s (l.foldl f s)
  | [], s, _ => .refl s
  | x :: l, s, h => (hf s x h).trans (PortOnly.foldl hf l (f s x) ((hf s x h).state ▸ h))

/-- A change of LPC alone, in CONFIG. -/
theorem PortOnly.port {s : State} (l : Lpc) (hreset : s.lpc.state ≠ .reset) (hconfig : l.config = s.lpc.config)
    (hnotices : l.notices = s.lpc.notices) (hlost : l.lost = s.lpc.lost) (hstate : l.state = s.lpc.state)
    (hidle : l.slot = s.lpc.slot ∨ ∀ run, l.slot ≠ .advancing run) (n : Nat) : PortOnly s { s with lpc := l, freeIndex := n } := by
  refine ⟨rfl, rfl, rfl, rfl, rfl, rfl, hconfig, hnotices, hlost, hstate, fun hs run hr => ?_, fun h => ?_⟩
  · rcases hidle with h | h
    · exact hs run (h ▸ hr)
    · exact h run hr
  · exact absurd (by rw [h]; rfl) hreset

theorem finish_portOnly {s : State} (h : s.lpc.state ≠ .reset) (c : ResultCode) (w0 w1 : Word) :
    PortOnly s (s.finish c w0 w1) := .port (s.finish c w0 w1).lpc h rfl rfl rfl rfl (.inr fun _ hr => nomatch hr) s.freeIndex

theorem takeStart_portOnly {s : State} (h : s.lpc.state ≠ .reset) : PortOnly s (takeStart s) := by
  unfold takeStart
  split
  · exact finish_portOnly h _ _ _
  · exact .port { s.lpc with slot := .starting [] } h rfl rfl rfl rfl (.inr fun _ hr => nomatch hr) s.freeIndex

/-- Outside RUNNING a GO starts a START, or is refused, or is ignored. -/
theorem goWrite_portOnly {s : State} (h : s.lpc.state ≠ .running) : PortOnly s s.goWrite := by
  unfold State.goWrite
  split
  · exact .refl s
  · rename_i hgo
    have hreset : s.lpc.state ≠ .reset := fun e => hgo (.inl e)
    split
    · exact finish_portOnly hreset _ _ _
    · split
      · exact finish_portOnly hreset _ _ _
      · rename_i hcmd
        have hconfig : s.lpc.state = .config := by
          cases hs : s.lpc.state with
          | reset => exact absurd hs hreset
          | config => rfl
          | running => exact absurd hs h
        have hone : s.lpc.cmd = 1 := not_not.1 fun hne => hcmd ⟨hconfig, hne⟩
        unfold State.takeCommand
        rw [hone]
        exact takeStart_portOnly hreset

theorem writeArg_portOnly (s : State) (k : Nat) (w : Word) (h : s.lpc.state ≠ .reset) : PortOnly s (s.writeArg k w) := by
  unfold State.writeArg
  split
  · exact .port { s.lpc with arg0 := w } h rfl rfl rfl rfl (.inl rfl) _
  · exact .port { s.lpc with arg1 := w } h rfl rfl rfl rfl (.inl rfl) _
  · exact .port { s.lpc with arg2 := w } h rfl rfl rfl rfl (.inl rfl) _
  · exact .port { s.lpc with arg3 := w } h rfl rfl rfl rfl (.inl rfl) _
  · exact .refl s

theorem writeCmd_portOnly {s : State} (c : Byte) (h : s.lpc.state ≠ .reset) : PortOnly s (s.writeCmd c) :=
  .port { s.lpc with cmd := c } h rfl rfl rfl rfl (.inl rfl) _

theorem issue_portOnly {s : State} (h : s.lpc.state ≠ .running) (code : Byte) (args : List Word) :
    PortOnly s (s.issue code args) := by
  unfold State.issue
  split
  · exact .refl s
  · rename_i hreset
    have hargs := PortOnly.foldl (f := fun s (p : Word × Nat) => s.writeArg p.2 p.1)
      (fun s p => writeArg_portOnly s p.2 p.1) args.zipIdx s hreset
    have hcmd := hargs.trans (writeCmd_portOnly code (hargs.state ▸ hreset))
    exact hcmd.trans (goWrite_portOnly (hcmd.state ▸ h))

/-- The word returned on LD: in RESET it is 0, as after reset. -/
theorem withLd_portOnly (s : State) (w : Word) (h : s.lpc.state = .reset → w = 0) : PortOnly s (s.withLd w) := by
  refine ⟨rfl, rfl, rfl, rfl, rfl, rfl, rfl, rfl, rfl, rfl, id, fun hs => ?_⟩
  rw [withLd_lpc, hs, h (by rw [hs]; rfl)]
  rfl

theorem readNotice_portOnly {s : State} (h : s.lpc.state ≠ .reset) (hnone : s.lpc.notices = []) : PortOnly s s.readNotice := by
  unfold State.readNotice
  rw [hnone]
  exact .port { s.lpc with ntc1 := 0, ld := 0 } h rfl rfl rfl rfl (.inl rfl) _

theorem captureStartWord_portOnly {s : State} (h : s.lpc.state ≠ .reset) (la : Half) : PortOnly s (s.captureStartWord la) := by
  unfold State.captureStartWord
  split
  · split
    · exact .port { s.lpc with slot := .starting _ } h rfl rfl rfl rfl (.inr fun _ hr => nomatch hr) _
    · exact .refl s
  · exact .refl s

theorem progressValidation_stays {s : State} (h : s.noRun) : progressValidation s = s := by
  unfold progressValidation
  split
  · exact absurd (by assumption) (h _)
  · rfl

theorem putBytes_portOnly (s : State) (a : Addr) (bs : List Byte) : PortOnly s (s.putBytes a bs) := by
  rw [putBytes_eq]
  exact ⟨rfl, rfl, rfl, rfl, rfl, rfl, rfl, rfl, rfl, rfl, id, id⟩

/-- `r` answers a state that differs from `s` in the port at most. -/
def AtPort (s : State) (r : Result) : Prop := ∃ t, r = .next t ∧ PortOnly s t

theorem AtPort.next {s t : State} (h : PortOnly s t) : AtPort s (.next t) := ⟨t, rfl, h⟩

theorem AtPort.stay {s : State} {r : Result} (h : r = .next s) : AtPort s r := ⟨s, h, .refl s⟩

theorem execRegisterWrite_atPort {s : State} (h : s.lpc.state ≠ .running) (alsoRead : Bool) (la : Half) (ld : Word) :
    AtPort s (execRegisterWrite alsoRead la ld s) := by
  unfold execRegisterWrite
  split
  · exact .next (withLd_portOnly s 0 fun _ => rfl)
  · split
    · exact .stay rfl
    · rename_i hreset
      split
      · exact .next (writeCmd_portOnly _ hreset)
      · exact .next (writeArg_portOnly s _ _ hreset)
      · exact .next (writeArg_portOnly s _ _ hreset)
      · exact .next (writeArg_portOnly s _ _ hreset)
      · exact .next (writeArg_portOnly s _ _ hreset)
      · exact .next (goWrite_portOnly h)
      · exact .stay rfl

theorem execNtc0Read_atPort {s : State} (hs : s.unstarted) (alsoWrite : Bool) : AtPort s (execNtc0Read alsoWrite s) := by
  unfold execNtc0Read
  split
  · exact .next (withLd_portOnly s 0 fun _ => rfl)
  · rename_i hreset
    split
    · exact .next (withLd_portOnly s 0 fun _ => rfl)
    · exact .next (readNotice_portOnly hreset hs.notices)

theorem execLocalMemoryAccess_atPort {s : State} (hs : s.unstarted) (lrd lwr : Bool) (la : Half) (ld : Word) :
    AtPort s (execLocalMemoryAccess lrd lwr la ld s) := by
  unfold execLocalMemoryAccess
  split
  · refine .next ?_
    split
    · exact withLd_portOnly s 0 fun _ => rfl
    · exact .refl s
  · rename_i hreset
    split
    · exact .next (withLd_portOnly s 0 fun _ => rfl)
    · exact .next (withLd_portOnly s _ fun h => absurd h hreset)
    · have hcapture := captureStartWord_portOnly hreset la
      rw [progressValidation_stays (hcapture.idle hs.idle)]
      exact .next (hcapture.trans (putBytes_portOnly _ _ _))
    · exact .stay rfl

/-- Before START a frame is discarded, and an arbitration, an expiry, a serve, a turn and a round find nothing to do. -/
theorem exec_atPort {s : State} (hstate : s.lpc.state ≠ .running) (hs : s.unstarted) (c : Instr) (hc : restarts c = false) :
    AtPort s (exec c s) := by
  have hframe (k : FrameKind) (a : Arrival) : s.accepts k a = false := by
    rw [Bool.eq_false_iff]
    exact fun h => hstate ((receiveFilter s k a).1 h).1
  have hdiscard {k : FrameKind} {a : Arrival} (c : Instr) (h : c.arrival = some (k, a)) : AtPort s (exec c s) :=
    .stay (discardedFrameChangesNothing c k a s h (hframe k a))
  have hclaims (i : SubIdx) : (s.sub i).claims = [] := by rw [hs.sub]; rfl
  have hretry : s.rqt.retryLine = [] := by rw [hs.rqt]; rfl
  have hserve : s.nextServe = none := by
    unfold State.nextServe
    rw [hs.pub]
    split <;> rfl
  have hturn : s.nextTurn = none := nextTurn_none fun i => by rw [hs.sub]; rfl
  cases c with
  | reset p => exact absurd hc (by simp [restarts])
  | resetRelease st br => exact absurd hc (by simp [restarts])
  | startCompletion => exact absurd hc (by simp [restarts])
  | start => exact .next (issue_portOnly hstate _ _)
  | openRing w0 w1 w2 w3 => exact .next (issue_portOnly hstate _ _)
  | advance w0 w1 => exact .next (issue_portOnly hstate _ _)
  | advanceCompletion =>
    refine .stay (congrArg Host.Outcome.next ?_)
    unfold completeAdvance
    split
    · exact absurd (by assumption) (hs.idle _)
    · rfl
  | retract w0 w1 => exact .next (issue_portOnly hstate _ _)
  | withdraw w0 w1 => exact .next (issue_portOnly hstate _ _)
  | ringStatus w0 w1 => exact .next (issue_portOnly hstate _ _)
  | join w0 w1 w2 w3 => exact .next (issue_portOnly hstate _ _)
  | leave w0 => exact .next (issue_portOnly hstate _ _)
  | flush w0 => exact .next (issue_portOnly hstate _ _)
  | flushAll => exact .next (issue_portOnly hstate _ _)
  | dismiss w0 => exact .next (issue_portOnly hstate _ _)
  | subStatus w0 w1 => exact .next (issue_portOnly hstate _ _)
  | accept w0 => exact .next (issue_portOnly hstate _ _)
  | retire w0 w1 => exact .next (issue_portOnly hstate _ _)
  | undefinedCommandCode code => exact .next (issue_portOnly hstate _ _)
  | registerWrite alsoRead la ld => exact execRegisterWrite_atPort hstate alsoRead la ld
  | ntc0Read alsoWrite => exact execNtc0Read_atPort hs alsoWrite
  | localMemoryAccess lrd lwr la ld => exact execLocalMemoryAccess_atPort hs lrd lwr la ld
  | arbitration others =>
    have hoffer : s.offer = none := by
      unfold State.offer State.running
      rw [if_neg (by simpa using hstate)]
    refine .stay ?_
    change execArbitration others s = _
    unfold execArbitration State.setTransmitting
    rw [hoffer, hs.liu, ← show s.liu = { Liu.reset with transmitting := none } from hs.liu]
  | tagGrant => exact .stay (by change Host.Outcome.next _ = _; rw [grantOnce_none hclaims]; rfl)
  | retryLineMove => exact .stay (by change Host.Outcome.next _ = _; rw [moveRetryOnce_none hretry]; rfl)
  | deadlineExpiry t => exact .stay (by change execDeadlineExpiry t s = _; unfold execDeadlineExpiry; rw [hs.tag])
  | keepaliveExpiry i => exact .stay (by change execKeepaliveExpiry i s = _; unfold execKeepaliveExpiry; rw [hs.sub]; rfl)
  | pollExpiry i => exact .stay (by change execPollExpiry i s = _; unfold execPollExpiry; rw [hs.sub]; rfl)
  | silenceExpiry r h => exact .stay (by change execSilenceExpiry r h s = _; unfold execSilenceExpiry; rw [hs.ring]; rfl)
  | drainExpiry r => exact .stay (by change execDrainExpiry r s = _; unfold execDrainExpiry; rw [hs.ring]; rfl)
  | helloFrame a => exact hdiscard (.helloFrame a) rfl
  | helloRosterRemoval a => exact hdiscard (.helloRosterRemoval a) rfl
  | announceFrame a => exact hdiscard (.announceFrame a) rfl
  | requestFrame k a => cases k <;> exact hdiscard (.requestFrame _ a) rfl
  | leaveFrame a => exact hdiscard (.leaveFrame a) rfl
  | releaseFrame a => exact hdiscard (.releaseFrame a) rfl
  | evictFrame a => exact hdiscard (.evictFrame a) rfl
  | welcomeFrame a => exact hdiscard (.welcomeFrame a) rfl
  | refuseFrame a => exact hdiscard (.refuseFrame a) rfl
  | listingFrame a => exact hdiscard (.listingFrame a) rfl
  | payloadFrame a => exact hdiscard (.payloadFrame a) rfl
  | serveJoin => exact .stay (by change execServeJoin s = _; unfold execServeJoin; rw [hserve])
  | serveFetch => exact .stay (by change execServeFetch s = _; unfold execServeFetch; rw [hserve])
  | servePull => exact .stay (by change execServePull s = _; unfold execServePull; rw [hserve])
  | pullStart => exact .stay (by change execPullStart s = _; unfold execPullStart; rw [hturn])
  | chunkIssue => exact .stay (by change execChunkIssue s = _; unfold execChunkIssue; rw [hturn])
  | blockGrantRound =>
    refine .stay (congrArg Host.Outcome.next ?_)
    rw [blockGrantRound_stays fun i q c h => absurd h (by rw [hs.sub]; simp [Sub.fresh]), deliverAll_stays hs.deliverable]
  | lineWaitRound =>
    exact .stay (congrArg Host.Outcome.next (lineWaitRound_stays (.inr fun i => by rw [hs.sub]; rfl)))
  | delivery => exact .stay (by change Host.Outcome.next _ = _; rw [deliverOnce_none hs.deliverable]; rfl)

/-! ### The invariant -/

theorem quiet_of_portOnly {s t : State} (hstate : s.lpc.state ≠ .running) (h : PortOnly s t) (hs : QuietUntilStart s) :
    QuietUntilStart t := by
  rw [quietUntilStart_iff] at hs ⊢
  obtain ⟨hunits, hreset⟩ := hs
  have hu := hunits hstate
  exact ⟨fun _ => ⟨h.liu.trans hu.liu, h.pub.trans hu.pub, h.subs.trans hu.subs, h.dpc.trans hu.dpc, h.rqt.trans hu.rqt,
    h.pdu.trans hu.pdu, h.config.trans hu.config, h.notices.trans hu.notices, h.lost.trans hu.lost, h.idle hu.idle⟩,
    fun ht => h.inReset (hreset (h.state ▸ ht))⟩

/-- In RUNNING the invariant says nothing. -/
theorem quiet_of_running {s : State} (h : s.lpc.state = .running) : QuietUntilStart s :=
  ⟨fun hne => absurd h hne, fun hr => absurd (h.symm.trans hr) (by decide)⟩

theorem readNotice_state (s : State) : s.readNotice.lpc.state = s.lpc.state := by
  unfold State.readNotice
  split
  · rfl
  · dsimp only
    split <;> rfl

theorem act_state {s t : State} (h : Act true s t) : t.lpc.state = s.lpc.state := by
  cases h with
  | post n => exact post_lpc_state s n
  | readNotice hown => exact readNotice_state s
  | port l hown hconfig hn hlost hdropped hstate => exact hstate
  | _ => rfl

theorem restarted_quiet (l : Lpc) (m : Memory) (p : List Instr) (n : Nat) (hl : l.cleared) (hslot : l.slot = .idle)
    (hreset : l.state = .reset → l = .reset) : QuietUntilStart (State.restarted l m p n) :=
  ⟨fun _ => ⟨rfl, rfl, rfl, rfl, rfl, rfl, hl.config, hl.notices, hl.lost, noRun_of_idle hslot⟩, hreset⟩

theorem completeStart_quiet {s : State} (hs : QuietUntilStart s) : QuietUntilStart (completeStart s) := by
  unfold completeStart
  split
  · rename_i captured hslot
    dsimp only
    split
    · by_cases hstate : s.lpc.state = .running
      · exact quiet_of_running hstate
      · refine quiet_of_portOnly hstate (finish_portOnly (fun hreset => ?_) _ _ _) hs
        rw [hs.2 hreset] at hslot
        exact nomatch hslot
    · refine quiet_of_running ?_
      rw [startUp_lpc]
  · exact hs

theorem exec_quiet {c : Instr} {s t : State} (hs : QuietUntilStart s) (he : exec c s = .next t) : QuietUntilStart t := by
  by_cases hc : restarts c = false
  · by_cases hstate : s.lpc.state = .running
    · obtain ⟨u, hu, hacts⟩ := exec_acts c s hc
      obtain rfl := Host.Outcome.next.inj (he.symm.trans hu)
      exact quiet_of_running (hacts.keeps (inv := fun v => v.lpc.state = .running)
        (fun _ _ ha hv => (act_state ha).trans hv) hstate)
    · obtain ⟨u, hu, hport⟩ := exec_atPort hstate (((quietUntilStart_iff s).1 hs).1 hstate) c hc
      obtain rfl := Host.Outcome.next.inj (he.symm.trans hu)
      exact quiet_of_portOnly hstate hport hs
  · cases c <;> simp only [restarts, not_true_eq_false] at hc
    case reset p =>
      obtain rfl := Host.Outcome.next.inj he
      exact restarted_quiet Lpc.reset _ _ _ ⟨rfl, rfl, rfl, rfl⟩ rfl fun _ => rfl
    case resetRelease st br =>
      change execResetRelease st br s = _ at he
      unfold execResetRelease at he
      split at he
      · obtain rfl := Host.Outcome.next.inj he
        exact restarted_quiet _ _ _ _ ⟨rfl, rfl, rfl, rfl⟩ rfl fun h => nomatch h
      · obtain rfl := Host.Outcome.next.inj he
        exact hs
    case startCompletion =>
      obtain rfl := Host.Outcome.next.inj he
      exact completeStart_quiet hs

/-- Settles O58. -/
theorem stepKeepsQuietUntilStart : Obligations.StepKeepsQuietUntilStart := by
  intro s t hs hstep
  unfold step at hstep
  split at hstep
  · rename_i rest _
    exact exec_quiet (s := { s with pending := rest }) hs hstep
  · obtain rfl := Host.Outcome.next.inj hstep
    unfold tick
    split
    · rename_i hrunning
      exact quiet_of_running (s := { s.countDown with pending := _ }) (beq_iff_eq.1 hrunning)
    · exact hs

/-- Settles O59. -/
theorem resetSatisfiesInvariants : Obligations.ResetSatisfiesInvariants := by
  have hunstarted : State.reset.unstarted :=
    ⟨rfl, rfl, rfl, rfl, rfl, rfl, rfl, rfl, rfl, noRun_of_idle rfl⟩
  have hring (r : RingIdx) : State.reset.ring r = Ring.reset := hunstarted.ring r
  have hsub (i : SubIdx) : State.reset.sub i = Sub.fresh 0 := hunstarted.sub i
  refine ⟨rfl, by unfold QueuesBounded; decide, by unfold NoticesCoherent; decide, ⟨fun r => ?_, fun _ hr => nomatch hr⟩,
    ⟨fun r hr => absurd (by rw [hring]; rfl) hr, fun _ hr => nomatch hr⟩, ⟨Nat.le_refl _, fun h => absurd h (Nat.lt_irrefl _)⟩,
    ⟨rfl, rfl⟩, fun i => ?_, ⟨fun t b hb => ?_, fun i hi => ?_⟩, (quietUntilStart_iff _).2 ⟨fun _ => hunstarted, fun _ => rfl⟩⟩
  · rw [hring]
    exact ⟨Nat.zero_le _, trivial, fun _ => ⟨rfl, rfl, rfl⟩, fun hd => absurd hd (by simp [Ring.reset])⟩
  · rw [hsub]
    decide
  · rw [hunstarted.tag] at hb
    exact nomatch hb
  · rw [hsub] at hi
    exact absurd rfl hi

end Sys2Proof.Machine
end

section
/-! PROOFS. The step, and the command slot: what a row that is a command of Table 9-4 does where its GO is ignored or refused,
and that a write to GO does what the row does (R173, R181, R182). -/
namespace Sys2Proof.Machine

/-! ### The step (log 6) -/

theorem tick_eq_map (t : Timer) : Timer.tick t = t.map (· - 1) := by cases t <;> rfl

theorem due_tag_iff (s : State) (g : TagIdx) :
    (s.tag g).due = true ↔ ∃ b, (s.tag g).bound = some b ∧ b.deadline = some 0 := by
  unfold Tag.due
  split
  · rename_i b hb
    rw [Timer.due_iff, hb]
    simp
  · rename_i hnone
    simp [hnone]

/-- The commands that join the queue at a time unit are those of the expiries that are due. -/
theorem mem_expiries_iff (s : State) (c : Instr) : c ∈ s.expiries ↔ s.expiryDue c := by
  unfold State.expiries State.silenceExpiries State.expiryDue
  simp only [List.mem_append, List.mem_map, List.mem_filter, List.mem_flatMap, List.mem_finRange, true_and, due_tag_iff,
    Timer.due_iff, or_assoc]
  refine or_congr ⟨?_, ?_⟩ (or_congr ⟨?_, ?_⟩ (or_congr ⟨?_, ?_⟩ (or_congr ⟨?_, ?_⟩ ⟨?_, ?_⟩)))
  · rintro ⟨g, ⟨b, hb, hd⟩, rfl⟩
    exact ⟨g, b, rfl, hb, hd⟩
  · rintro ⟨g, b, rfl, hb, hd⟩
    exact ⟨g, ⟨b, hb, hd⟩, rfl⟩
  · rintro ⟨i, hi, rfl⟩
    exact ⟨i, rfl, hi⟩
  · rintro ⟨i, rfl, hi⟩
    exact ⟨i, hi, rfl⟩
  · rintro ⟨i, hi, rfl⟩
    exact ⟨i, rfl, hi⟩
  · rintro ⟨i, rfl, hi⟩
    exact ⟨i, hi, rfl⟩
  · rintro ⟨r, m, ⟨hm, hd⟩, rfl⟩
    exact ⟨r, m, rfl, hm, hd⟩
  · rintro ⟨r, m, rfl, hm, hd⟩
    exact ⟨r, m, ⟨hm, hd⟩, rfl⟩
  · rintro ⟨r, hr, rfl⟩
    exact ⟨r, rfl, hr⟩
  · rintro ⟨r, rfl, hr⟩
    exact ⟨r, hr, rfl⟩

theorem tick_of_running {s : State} (h : s.lpc.state = .running) :
    tick s = { s.countDown with pending := s.pending ++ s.countDown.expiries } := if_pos (beq_iff_eq.2 h)

theorem tick_of_not_running {s : State} (h : s.lpc.state ≠ .running) : tick s = s := if_neg (by simpa [State.running] using h)

theorem idleStepIsTimeUnit : Part.IdleStepIsTimeUnit := by
  intro s hidle
  have hstep : step s = .next (tick s) := by
    unfold step
    rw [hidle]
  rw [hstep]
  refine ⟨fun h => by rw [tick_of_not_running h], fun h => ⟨_, rfl, ?_⟩⟩
  rw [tick_of_running h, hidle, List.nil_append]
  refine ⟨fun r => ?_, fun i => ?_, fun g => ?_, fun c => mem_expiries_iff s.countDown c, rfl⟩
  · refine (countDown_ring s r).trans ?_
    simp only [Ring.tick, tick_eq_map]
  · refine (countDown_sub s i).trans ?_
    simp only [Sub.tick, tick_eq_map]
  · refine (countDown_tag s g).trans ?_
    simp only [Tag.tick, tick_eq_map]

/-- Settles O1. -/
theorem stepRunsFrontCommand : Obligations.StepRunsFrontCommand := ⟨fun _ _ _ => rfl, idleStepIsTimeUnit⟩

/-! ### The rows that are commands of Table 9-4 -/

/-- A command row issues its code with its argument words (log 8). -/
theorem exec_of_commandCode {c : Instr} {code : Byte} (h : c.commandCode = some code) (s : State) :
    exec c s = .next (s.issue code c.arguments) := by
  cases c <;> simp only [Instr.commandCode, reduceCtorEq, Option.some.injEq] at h
  all_goals
    subst h
    rfl

theorem issue_in_reset {s : State} (h : s.lpc.state = .reset) (code : Byte) (args : List Word) : s.issue code args = s :=
  if_pos h

theorem sameButCommandRegisters.refl (s : State) : sameButCommandRegisters s s := rfl

theorem sameButCommandRegisters.trans {s t u : State} (h : sameButCommandRegisters s t) (k : sameButCommandRegisters t u) :
    sameButCommandRegisters s u := by
  unfold sameButCommandRegisters at *
  rw [k, h]

theorem writeArg_sameBut (s : State) (k : Nat) (w : Word) : sameButCommandRegisters s (s.writeArg k w) := by
  unfold State.writeArg
  split <;> rfl

theorem writeArgs_sameBut : ∀ (l : List (Word × Nat)) (s : State),
    sameButCommandRegisters s (l.foldl (fun s p => s.writeArg p.2 p.1) s)
  | [], s => .refl s
  | p :: l, s => (writeArg_sameBut s p.2 p.1).trans (writeArgs_sameBut l _)

/-- Outside RESET a command is issued as a GO with its code in CMD and its words in the argument registers. -/
theorem issue_eq_goWrite {s : State} (h : s.lpc.state ≠ .reset) (code : Byte) (args : List Word) :
    ∃ u, sameButCommandRegisters s u ∧ u.lpc.cmd = code ∧ s.issue code args = u.goWrite :=
  ⟨_, (writeArgs_sameBut args.zipIdx s).trans (u := State.writeCmd _ code) rfl, rfl, if_neg h⟩

theorem goWrite_of_busy {s : State} (h : s.busy = true) : s.goWrite = s := if_pos (.inr h)

theorem goWrite_in_reset {s : State} (h : s.lpc.state = .reset) : s.goWrite = s := if_pos (.inl h)

theorem sameButCommandRegisters.state {s t : State} (h : sameButCommandRegisters s t) : t.lpc.state = s.lpc.state := by
  rw [h]

theorem sameButCommandRegisters.slot {s t : State} (h : sameButCommandRegisters s t) : t.lpc.slot = s.lpc.slot := by
  rw [h]

theorem goIgnoredWhileBusy : Part.GoIgnoredWhileBusy := by
  intro c code s hcode hreset hbusy
  obtain ⟨u, hsame, hcmd, hissue⟩ := issue_eq_goWrite hreset code c.arguments
  rw [exec_of_commandCode hcode, hissue, goWrite_of_busy]
  · exact ⟨u, rfl, hsame, hcmd⟩
  · unfold State.busy at hbusy ⊢
    rw [hsame.slot, hbusy]

/-- Settles O3. -/
theorem goIgnoredInResetAndBusy : Obligations.GoIgnoredInResetAndBusy :=
  ⟨fun c code s hcode hreset => by rw [exec_of_commandCode hcode, issue_in_reset hreset], goIgnoredWhileBusy⟩

theorem definedCode_iff (code : Byte) : definedCode code = true ↔ 1 ≤ code.toNat ∧ code.toNat ≤ 13 := by
  simp [definedCode]

/-- Outside RESET, with BUSY at 0, an undefined code is refused with BAD_ARG. -/
theorem goWrite_of_undefined {s : State} (hreset : s.lpc.state ≠ .reset) (hidle : s.lpc.slot = .idle)
    (hcode : definedCode s.lpc.cmd = false) : s.goWrite = s.refuse .badArg := by
  rw [← Bool.not_eq_true, definedCode_iff] at hcode
  rw [State.goWrite, if_neg (by simp [State.busy, hreset, hidle]), if_pos (by omega)]

theorem goWrite_in_config {s : State} (hconfig : s.lpc.state = .config) (hidle : s.lpc.slot = .idle)
    (hcode : definedCode s.lpc.cmd = true) (hne : s.lpc.cmd ≠ 1) : s.goWrite = s.refuse .state := by
  rw [definedCode_iff] at hcode
  rw [State.goWrite, if_neg (by simp [State.busy, hconfig, hidle]), if_neg (by omega), if_pos ⟨hconfig, hne⟩]

theorem commandRefusedInConfig : Part.CommandRefusedInConfig := by
  intro c code s hcode hdefined hne hconfig hidle
  obtain ⟨u, hsame, hcmd, hissue⟩ := issue_eq_goWrite (by rw [hconfig]; decide) code c.arguments
  refine ⟨u, hsame, hcmd, ?_⟩
  rw [exec_of_commandCode hcode, hissue, goWrite_in_config (hsame.state.trans hconfig) (hsame.slot.trans hidle)]
  · rfl
  · rw [hcmd, hdefined]
  · rw [hcmd]
    exact hne

theorem undefinedCodeGivesBadArg : Part.UndefinedCodeGivesBadArg := by
  intro code s hcode hreset hidle
  change Host.Outcome.next (s.issue code []) = _
  rw [show s.issue code [] = (s.writeCmd code).goWrite from if_neg hreset]
  exact congrArg Host.Outcome.next (goWrite_of_undefined (s := s.writeCmd code) hreset hidle hcode)

/-- Settles O4. -/
theorem configAndUndefinedCodes : Obligations.ConfigAndUndefinedCodes := ⟨commandRefusedInConfig, undefinedCodeGivesBadArg⟩

/-! ### Reset (R173, R174) -/

theorem releaseSamplesStraps : Part.ReleaseSamplesStraps :=
  fun _ _ _ => ⟨fun h => ⟨_, if_pos h, rfl, rfl, rfl, rfl, rfl, rfl, rfl, rfl, rfl, rfl, rfl, rfl, rfl, rfl, rfl, rfl, rfl, rfl⟩,
    fun h => if_neg h⟩

/-- Settles O5. -/
theorem resetAndRelease : Obligations.ResetAndRelease := ⟨fun _ _ => rfl, releaseSamplesStraps⟩

/-! ### The register window (R180) -/

theorem registerOffset (la : Half) : (la.extractLsb' 0 4).toNat = la.toNat % 16 := by
  rw [BitVec.extractLsb'_toNat]
  simp

/-- What a write does to the register at an offset (Table 9-3). -/
def State.writeRegister (s : State) (w : Word) : Nat → State
  | 0 => s.writeCmd (w.extractLsb' 0 8)
  | 1 => s.writeArg 0 w
  | 2 => s.writeArg 1 w
  | 3 => s.writeArg 2 w
  | 4 => s.writeArg 3 w
  | 5 => s.goWrite
  | _ => s

/-- A register write outside RESET, with LRD# not asserted, goes to the register at its offset. -/
theorem execRegisterWrite_of_offset {s : State} {la : Half} {k : Nat} (w : Word) (hreset : s.lpc.state ≠ .reset)
    (h : la.toNat % 16 = k) : exec (.registerWrite false la w) s = .next (s.writeRegister w k) := by
  change execRegisterWrite false la w s = _
  unfold execRegisterWrite
  rw [if_neg (by simp), if_neg hreset, registerOffset, h]
  match k with
  | 0 | 1 | 2 | 3 | 4 | 5 | _ + 6 => rfl

theorem registerWriteStores : Part.RegisterWriteStores := by
  intro both la w s
  refine ⟨fun hboth => ?_, fun hreset hboth => ?_, fun hreset hboth => ?_⟩
  · subst hboth
    rfl
  · subst hboth
    exact if_pos hreset
  · subst hboth
    refine ⟨fun h => ?_, fun h => ?_, fun h => ?_, fun h => ?_, fun h => ?_, fun h => ?_⟩
    · rw [execRegisterWrite_of_offset w hreset h]
      simp only [State.writeRegister, State.writeCmd]
      rw [show w.extractLsb' 0 8 = BitVec.ofNat 8 w.toNat by simp [BitVec.extractLsb', Nat.shiftRight_zero]]
    · exact execRegisterWrite_of_offset w hreset h
    · exact execRegisterWrite_of_offset w hreset h
    · exact execRegisterWrite_of_offset w hreset h
    · exact execRegisterWrite_of_offset w hreset h
    · rw [execRegisterWrite_of_offset w hreset (Nat.sub_add_cancel h).symm]
      rfl

/-- Writing the words that the argument registers hold already changes nothing. -/
theorem writeArgs_of_held {s : State} {args : List Word} (h : args <+: s.argRegisters) :
    args.zipIdx.foldl (fun s p => s.writeArg p.2 p.1) s = s := by
  refine foldl_stays fun p hp => ?_
  obtain ⟨w, k⟩ := p
  obtain ⟨-, hk, hw⟩ := List.mem_zipIdx hp
  obtain ⟨rest, hrest⟩ := h
  have hget : s.argRegisters[k]? = some w := by
    rw [← hrest, List.getElem?_append_left (by simpa using hk)]
    rw [List.getElem?_eq_getElem (by simpa using hk)]
    simpa using hw.symm
  match k, hget with
  | 0, e => obtain rfl := Option.some.inj e; rfl
  | 1, e => obtain rfl := Option.some.inj e; rfl
  | 2, e => obtain rfl := Option.some.inj e; rfl
  | 3, e => obtain rfl := Option.some.inj e; rfl
  | k + 4, e => exact nomatch e

theorem goIssuesLatchedCommand : Part.GoIssuesLatchedCommand := by
  intro c code w la s hcode hcmd hargs hla
  refine ⟨s.goWrite, ?_, ?_⟩
  · by_cases hreset : s.lpc.state = .reset
    · rw [goWrite_in_reset hreset]
      exact if_pos hreset
    · exact execRegisterWrite_of_offset w hreset hla
  · rw [exec_of_commandCode hcode]
    by_cases hreset : s.lpc.state = .reset
    · rw [issue_in_reset hreset, goWrite_in_reset hreset]
    · rw [State.issue, if_neg hreset, writeArgs_of_held hargs, show s.writeCmd code = s by rw [← hcmd]; rfl]

theorem goWriteIgnored : Part.GoWriteIgnored := by
  intro w la s hla hignored
  by_cases hreset : s.lpc.state = .reset
  · exact if_pos hreset
  · rw [execRegisterWrite_of_offset w hreset hla]
    refine congrArg Host.Outcome.next (goWrite_of_busy ?_)
    simpa [State.busy] using hignored.resolve_left hreset

/-- A field of a word of concatenated fields. -/
theorem statusWordAndInterrupt : Part.StatusWordAndInterrupt := by
  intro s
  refine ⟨fun hreset => ?_, fun hreset offset => if_pos hreset, ?_⟩
  · have hstat : s.readRegister 6 = s.stat := if_neg hreset
    rw [hstat]
    unfold State.stat
    simp (disch := omega) only [BitVec.extractLsb'_append_eq_of_le, BitVec.extractLsb'_append_eq_of_add_le,
      BitVec.getLsbD_append]
    simp
  · unfold State.intAsserted
    rw [Bool.or_eq_true, Bool.and_eq_true, Bool.and_eq_true, decide_eq_true_eq]
    simp

/-- Settles O20. -/
theorem registerWindow : Obligations.RegisterWindow :=
  ⟨registerWriteStores, goIssuesLatchedCommand, goWriteIgnored, statusWordAndInterrupt⟩

end Sys2Proof.Machine
end

section
/-! PROOFS. START (R175 to R178): the fields of its record by their bytes, the judgement of the record, and what follows. -/
namespace Sys2Proof.Machine

/-! ### START is taken -/

theorem exec_start_of_not_reset {s : State} (h : s.lpc.state ≠ .reset) : exec .start s = .next (s.writeCmd 1).goWrite :=
  congrArg Host.Outcome.next (if_neg h)

theorem startTakenInConfig : Part.StartTakenInConfig := by
  intro s hidle
  refine ⟨fun h => ?_, fun h => ?_⟩
  · have hready : (s.writeCmd 1).ready := ⟨h, hidle⟩
    rw [exec_start_of_not_reset (by rw [h]; decide), goWrite_of_ready hready (by simp) (by simp)]
    exact congrArg Host.Outcome.next (if_pos (beq_iff_eq.2 h))
  · have hbusy : ¬ ((s.writeCmd 1).lpc.state = .reset ∨ (s.writeCmd 1).busy = true) := by simp [State.busy, h, hidle]
    rw [exec_start_of_not_reset (by rw [h]; decide), State.goWrite, if_neg hbusy, if_neg (by simp), if_neg (by simp)]
    exact congrArg Host.Outcome.next (if_neg (by simp [State.running, h]))

/-! ### The bytes of the record -/

/-- The bytes of a word, least significant first. -/
theorem byte_of_word (b0 b1 b2 b3 : Byte) : (word b0 b1 b2 b3).extractLsb' 0 8 = b0 ∧
    (word b0 b1 b2 b3).extractLsb' 8 8 = b1 ∧ (word b0 b1 b2 b3).extractLsb' 16 8 = b2 ∧
    (word b0 b1 b2 b3).extractLsb' 24 8 = b3 := by
  unfold word
  simp (disch := omega) only [BitVec.extractLsb'_append_eq_of_le, BitVec.extractLsb'_append_eq_of_add_le]
  simp

theorem startReadsMemory : Part.StartReadsMemory := by
  intro s k _
  have hword : s.startWord [] (k / 4) = s.wordAt (addr (4 * (k / 4))) := rfl
  unfold State.startByte
  rw [hword]
  obtain ⟨h0, h1, h2, h3⟩ := byte_of_word (s.byteAt (addr (4 * (k / 4)))) (s.byteAt (addr (4 * (k / 4)) + 1))
    (s.byteAt (addr (4 * (k / 4)) + 2)) (s.byteAt (addr (4 * (k / 4)) + 3))
  have haddr (j : Nat) (h : k = 4 * (k / 4) + j) : addr (4 * (k / 4)) + BitVec.ofNat 18 j = addr k := by
    rw [addr, addr, ← BitVec.ofNat_add, ← h]
  have hcases : k % 4 = 0 ∨ k % 4 = 1 ∨ k % 4 = 2 ∨ k % 4 = 3 := by omega
  rcases hcases with h | h | h | h <;> rw [h]
  · rw [← haddr 0 (by omega)]
    rw [show addr (4 * (k / 4)) + BitVec.ofNat 18 0 = addr (4 * (k / 4)) from BitVec.add_zero _]
    exact congrArg BitVec.toNat h0
  · rw [← haddr 1 (by omega)]
    exact congrArg BitVec.toNat h1
  · rw [← haddr 2 (by omega)]
    exact congrArg BitVec.toNat h2
  · rw [← haddr 3 (by omega)]
    exact congrArg BitVec.toNat h3

/-! ### The fields by their bytes (Table 10-8) -/

theorem halfWord_of_bytes (w : Word) :
    (w.extractLsb' 0 16).toNat = (w.extractLsb' 0 8).toNat + 256 * (w.extractLsb' 8 8).toNat ∧
    (w.extractLsb' 16 16).toNat = (w.extractLsb' 16 8).toNat + 256 * (w.extractLsb' 24 8).toNat := by
  simp only [BitVec.extractLsb'_toNat, Nat.shiftRight_eq_div_pow]
  omega

theorem toNat_of_halfWords (w : Word) : w.toNat = (w.extractLsb' 0 16).toNat + 65536 * (w.extractLsb' 16 16).toNat := by
  have := w.isLt
  simp only [BitVec.extractLsb'_toNat, Nat.shiftRight_eq_div_pow]
  omega

theorem word_of_bytes (w : Word) : w.toNat =
    (w.extractLsb' 0 8).toNat + 256 * (w.extractLsb' 8 8).toNat +
      65536 * ((w.extractLsb' 16 8).toNat + 256 * (w.extractLsb' 24 8).toNat) := by
  obtain ⟨hlow, hhigh⟩ := halfWord_of_bytes w
  rw [← hlow, ← hhigh]
  exact toNat_of_halfWords w

/-- Each field of the record, by its bytes. -/
theorem field_eq_startValue (s : State) (captured : List (Nat × Word)) :
    ∀ i, (s.startRecord captured).field i = s.startValue captured i
  | 0 => rfl
  | 1 => (halfWord_of_bytes (s.startWord captured 0)).1
  | 2 => (halfWord_of_bytes (s.startWord captured 0)).2
  | 3 => rfl
  | 4 => (halfWord_of_bytes (s.startWord captured 1)).1
  | 5 => (halfWord_of_bytes (s.startWord captured 1)).2
  | 6 => (halfWord_of_bytes (s.startWord captured 2)).1
  | 7 => rfl
  | 8 => rfl
  | 9 => rfl
  | 10 => rfl
  | 11 => word_of_bytes (s.startWord captured 4)
  | 12 => (halfWord_of_bytes (s.startWord captured 5)).1
  | 13 => word_of_bytes (s.startWord captured 6)
  | 14 => (halfWord_of_bytes (s.startWord captured 7)).1
  | 15 => rfl
  | _ + 16 => rfl

/-! ### The judgement (Table 9-2) -/

theorem overlap_false_iff (b1 n1 b2 n2 : Nat) : (!areasOverlap b1 n1 b2 n2) = true ↔ ¬ sharesByte b1 n1 b2 n2 := by
  rw [Bool.not_eq_true', ← Bool.not_eq_true, areasOverlap_iff_sharesByte]

/-- A field of the pool or queue area: its count in range, the area inside memory. -/
theorem area_passes_iff (base count size : Nat) (hsize : 0 < size) :
    (within count 16 512 && insideMemory base (size * count)) = true ↔
      16 ≤ count ∧ count ≤ 512 ∧ base + size * count ≤ 262144 := by
  rw [Bool.and_eq_true, within_iff, and_assoc]
  refine and_congr_right fun h => and_congr_right fun _ => insideMemory_iff (Nat.mul_pos hsize (by omega))

theorem within_and_iff (n lo hi : Nat) (p : Prop) [Decidable p] :
    (within n lo hi && decide p) = true ↔ lo ≤ n ∧ n ≤ hi ∧ p := by
  rw [Bool.and_eq_true, within_iff, decide_eq_true_iff, and_assoc]

/-- An area that shares no byte with another. -/
theorem area_clear_iff (base count size b2 n2 : Nat) (hsize : 0 < size) :
    (within count 16 512 && insideMemory base (size * count) && !areasOverlap base (size * count) b2 n2) = true ↔
      16 ≤ count ∧ count ≤ 512 ∧ base + size * count ≤ 262144 ∧ ¬ sharesByte base (size * count) b2 n2 := by
  rw [Bool.and_eq_true, area_passes_iff _ _ _ hsize, overlap_false_iff, and_assoc, and_assoc]

/-- An area that shares no byte with either of two others. -/
theorem area_clear_of_both_iff (base count size b2 n2 b3 n3 : Nat) (hsize : 0 < size) :
    (within count 16 512 && insideMemory base (size * count) && !areasOverlap base (size * count) b2 n2 &&
      !areasOverlap base (size * count) b3 n3) = true ↔
      16 ≤ count ∧ count ≤ 512 ∧ base + size * count ≤ 262144 ∧ ¬ sharesByte base (size * count) b2 n2 ∧
        ¬ sharesByte base (size * count) b3 n3 := by
  rw [Bool.and_eq_true, area_clear_iff _ _ _ _ _ hsize, overlap_false_iff, and_assoc, and_assoc, and_assoc]

theorem passes_iff (r : StartRecord) : ∀ i, r.passes i = true ↔ startFieldOk r.field i
  | 0 => iff_of_true rfl trivial
  | 1 => iff_of_true rfl trivial
  | 2 => within_iff (r.field 2) 1 1000
  | 3 => (within_iff (r.field 3) 0 7).trans (and_iff_right (Nat.zero_le _))
  | 4 => within_iff (r.field 4) 10 65535
  | 5 => within_and_iff (r.field 5) 10 65535 (r.field 4 < r.field 5)
  | 6 => within_iff (r.field 6) 10 65535
  | 7 => within_iff (r.field 7) 1 8
  | 8 => within_and_iff (r.field 8) 1 16 (r.field 7 ≤ r.field 8)
  | 9 => within_iff (r.field 9) 1 2
  | 10 => within_iff (r.field 10) 1 64
  | 11 => beq_iff_eq
  | 12 => area_clear_iff (r.field 11) (r.field 12) 48 0 64 (by decide)
  | 13 => beq_iff_eq
  | 14 => area_clear_of_both_iff (r.field 13) (r.field 14) 256 0 64 (r.field 11) (48 * r.field 12) (by decide)
  | 15 => decide_eq_true_iff
  | _ + 16 => iff_of_true rfl trivial

theorem firstBad_eq (r : StartRecord) : r.firstBad = (List.range' 1 15).find? fun i => !r.passes i := rfl

theorem badStartRecordRefused : Part.BadStartRecordRefused := by
  intro s captured i hslot hlo hhi v hbad hgood
  have hfield : (s.startRecord captured).field = v := funext (field_eq_startValue s captured)
  have hfirst : (s.startRecord captured).firstBad = some i := by
    rw [firstBad_eq, List.find?_range'_eq_some]
    refine ⟨?_, ?_, fun j hj hji => ?_⟩
    · rw [Bool.not_eq_true', ← Bool.not_eq_true, passes_iff, hfield]
      exact hbad
    · rw [List.mem_range'_1]
      omega
    · rw [Bool.not_not, passes_iff, hfield]
      exact hgood j hj hji
  change Host.Outcome.next (completeStart s) = _
  unfold completeStart
  rw [hslot]
  dsimp only
  rw [hfirst]
  dsimp only
  rw [hfield]

/-- The configuration that a record of good fields freezes, by its values (R177). -/
theorem toConfig_eq (r : StartRecord) (h : r.field 15 < 4) : r.toConfig =
    { incarnation := BitVec.ofNat 16 (r.field 1), requestTimeout := r.field 2, retryLimit := r.field 3,
      keepalive := r.field 4, silenceLimit := r.field 5, pollInterval := r.field 6, minFetch := r.field 7,
      maxFetch := r.field 8, fetchesPerSub := r.field 9, releaseBatch := r.field 10, queueBase := r.field 11,
      queueCapacity := r.field 12, poolBase := r.field 13, poolBlocks := r.field 14,
      noticeEnable := decide (r.field 15 % 2 = 1), deliveryEnable := decide (2 ≤ r.field 15) } := by
  have hincarnation : r.w0.extractLsb' 0 16 = BitVec.ofNat 16 (r.field 1) := by
    rw [StartRecord.field, BitVec.ofNat_toNat, BitVec.setWidth_eq]
  have henable : r.field 15 = r.w3.toNat / 16777216 % 256 := by
    rw [StartRecord.field, BitVec.extractLsb'_toNat, Nat.shiftRight_eq_div_pow]
  have hnotice : r.w3.getLsbD 24 = decide (r.field 15 % 2 = 1) := by
    rw [henable, BitVec.getLsbD, Nat.testBit_eq_decide_div_mod_eq, decide_eq_decide]
    omega
  have hdelivery : r.w3.getLsbD 25 = decide (2 ≤ r.field 15) := by
    rw [henable] at h ⊢
    rw [BitVec.getLsbD, Nat.testBit_eq_decide_div_mod_eq, decide_eq_decide]
    omega
  unfold StartRecord.toConfig
  rw [hincarnation, hnotice, hdelivery]

theorem goodStartRecordRuns : Part.GoodStartRecordRuns := by
  intro s captured hslot honeOff v hgood
  have hfield : (s.startRecord captured).field = v := funext (field_eq_startValue s captured)
  have hfirst : (s.startRecord captured).firstBad = none := by
    rw [firstBad_eq, List.find?_eq_none]
    intro i hi
    rw [List.mem_range'_1] at hi
    rw [Bool.not_eq_true', Bool.not_eq_false, passes_iff, hfield]
    exact hgood i hi.1 (by omega)
  have hconfig := toConfig_eq (s.startRecord captured) (by rw [hfield]; exact hgood 15 (by omega) (by omega))
  rw [hfield] at hconfig
  change Host.Outcome.next (completeStart s) = _
  unfold completeStart
  rw [hslot]
  dsimp only
  rw [hfirst]
  dsimp only
  rw [hconfig]
  unfold State.startUp State.placeOneOff
  dsimp only
  rw [honeOff, if_pos (by decide)]
  rfl

/-- Settles O6. -/
theorem startOutcomes : Obligations.StartOutcomes :=
  ⟨startTakenInConfig, startReadsMemory, badStartRecordRefused, goodStartRecordRuns⟩

end Sys2Proof.Machine
end

section
/-! PROOFS. ADVANCE: its checks (R9), the validation of its slots (R10, R11) and the publication of the batch (R12). -/
namespace Sys2Proof.Machine

/-! ### The checks (R9) -/

theorem exec_advance_of_ready {s : State} (h : s.ready) (ring n : Word) :
    exec (.advance ring n) s = .next (takeAdvance ring n (s.args2 3 ring n)) :=
  congrArg Host.Outcome.next (issue_two_words h (by decide) (by decide) ring n)

theorem takeAdvance_of_no_ring {ring : Word} (h : 8 ≤ ring.toNat) (n : Word) (s : State) :
    takeAdvance ring n s = s.finish .badArg 0 0 := by
  simp only [takeAdvance, ringOfWord_of_le h, State.refuse]

section
variable {ring n : Word} {r : RingIdx} {s : State} (hring : ring.toNat = r.val)
include hring

theorem takeAdvance_of_not_opened (h : (s.ring r).state ≠ .opened) : takeAdvance ring n s = s.finish .state 0 0 := by
  simp only [takeAdvance, ringOfWord_of_eq hring, State.refuse, if_pos h]

variable (hopen : (s.ring r).state = .opened)
include hopen

theorem takeAdvance_of_bad_length (h : n.toNat < 1 ∨ (s.ring r).slotCount.toNat < n.toNat) :
    takeAdvance ring n s = s.finish .badArg 0 0 := by
  simp only [takeAdvance, ringOfWord_of_eq hring, State.refuse, if_neg (not_not.2 hopen), if_pos h]

variable (hlo : 1 ≤ n.toNat) (hhi : n.toNat ≤ (s.ring r).slotCount.toNat)
include hlo hhi

theorem takeAdvance_of_full (h : (s.ring r).slotCount.toNat < (s.ring r).held + n.toNat) :
    takeAdvance ring n s = s.finish .ringFull (BitVec.ofNat 32 ((s.ring r).slotCount.toNat - (s.ring r).held)) 0 := by
  have hlength : ¬ (n.toNat < 1 ∨ (s.ring r).slotCount.toNat < n.toNat) := by omega
  simp only [takeAdvance, ringOfWord_of_eq hring, if_neg (not_not.2 hopen), if_neg hlength, if_pos h]

theorem takeAdvance_of_room (h : (s.ring r).held + n.toNat ≤ (s.ring r).slotCount.toNat) :
    takeAdvance ring n s = { s with lpc := { s.lpc with
      slot := .advancing { ring := r, start := (s.ring r).tail, length := n.toNat, judged := 0, part := [], bad := none } } } := by
  have hlength : ¬ (n.toNat < 1 ∨ (s.ring r).slotCount.toNat < n.toNat) := by omega
  simp only [takeAdvance, ringOfWord_of_eq hring, if_neg (not_not.2 hopen), if_neg hlength, if_neg (Nat.not_lt.2 h)]

end

/-- Settles O8: the branches of ADVANCE, one clause each. -/
theorem advanceChecks : Obligations.AdvanceChecks := by
  intro ring n s hs
  dsimp only
  simp only [exec_advance_of_ready hs, Host.Outcome.next.injEq]
  refine ⟨fun h => takeAdvance_of_no_ring h n _, fun r hring => ⟨fun h => ?_, fun hopen => ⟨fun h => ?_, fun hlo hhi =>
    ⟨fun h => ?_, fun h => ?_⟩⟩⟩⟩
  · exact takeAdvance_of_not_opened (s := s.args2 3 ring n) hring h
  · refine takeAdvance_of_bad_length (s := s.args2 3 ring n) hring hopen (h.imp_left fun h => ?_)
    rw [h]
    decide
  · exact takeAdvance_of_full (s := s.args2 3 ring n) hring hopen hlo hhi h
  · exact takeAdvance_of_room (s := s.args2 3 ring n) hring hopen hlo hhi h

/-! ### The checks of a slot (Table 1-4) -/

theorem flags_extract_iff (fl : Byte) : fl.extractLsb' 2 6 = 0 ↔ fl &&& 0xFC = 0 := by
  rw [flags_clear_iff]
  revert fl
  decide

theorem not_insideMemory_iff (base : Nat) (n : Half) : (!insideMemory base n.toNat) = true ↔ ¬ (n = 0 ∨ base + n.toNat ≤ 262144) := by
  rw [Bool.not_eq_true', ← Bool.not_eq_true, insideMemory, Bool.or_eq_true, decide_eq_true_eq, decide_eq_true_eq,
    Config.memoryBytes, ← BitVec.toNat_inj]
  rfl

open Classical in
/-- The check code of a slot is that of the first check it fails. -/
theorem slotCheck_eq (s : State) (r : RingIdx) (q : Seq) : s.slotCheck (s.slotAt (s.ring r) q) =
    if ¬ s.slotPasses r q 1 then some 1 else if ¬ s.slotPasses r q 2 then some 2 else if ¬ s.slotPasses r q 3 then some 3
    else if ¬ s.slotPasses r q 4 then some 4 else if ¬ s.slotPasses r q 5 then some 5 else none := by
  have h1 : (4096 < (s.slotAt (s.ring r) q).length.toNat) ↔ ¬ s.slotPasses r q 1 := Nat.not_le.symm
  have h2 : ((s.slotAt (s.ring r) q).flags.extractLsb' 2 6 ≠ 0) ↔ ¬ s.slotPasses r q 2 := not_congr (flags_extract_iff _)
  have h3 : ((s.slotAt (s.ring r) q).offset.toNat % 4 ≠ 0) ↔ ¬ s.slotPasses r q 3 := Iff.rfl
  have h4 : ((!insideMemory (s.slotAt (s.ring r) q).offset.toNat (s.slotAt (s.ring r) q).length.toNat) = true) ↔
      ¬ s.slotPasses r q 4 := not_insideMemory_iff _ _
  have h5 : (overlapsAny (s.slotAt (s.ring r) q).offset.toNat (s.slotAt (s.ring r) q).length.toNat
      (fixedRegions s.config ++ s.publishedAreas) = true) ↔ ¬ s.slotPasses r q 5 := by
    rw [overlapsAny_iff]
    simp only [State.slotPasses, not_forall, not_not, exists_prop]
  unfold State.slotCheck
  simp only [h1, h2, h3, h4, h5]

theorem slotCheck_of_passes {s : State} {r : RingIdx} {q : Seq} (h : ∀ c, 1 ≤ c → c ≤ 5 → s.slotPasses r q c) :
    s.slotCheck (s.slotAt (s.ring r) q) = none := by
  rw [slotCheck_eq]
  simp only [h 1 (by omega) (by omega), h 2 (by omega) (by omega), h 3 (by omega) (by omega), h 4 (by omega) (by omega),
    h 5 (by omega) (by omega), not_true_eq_false, if_false]

theorem slotCheck_of_fails {s : State} {r : RingIdx} {q : Seq} {code : Nat} (hlo : 1 ≤ code) (hhi : code ≤ 5)
    (hbefore : ∀ c, 1 ≤ c → c < code → s.slotPasses r q c) (hbad : ¬ s.slotPasses r q code) :
    s.slotCheck (s.slotAt (s.ring r) q) = some code := by
  have hpass (c : Nat) (h : 1 ≤ c ∧ c < code) : ¬ ¬ s.slotPasses r q c := not_not.2 (hbefore c h.1 h.2)
  rw [slotCheck_eq]
  have hcases : code = 1 ∨ code = 2 ∨ code = 3 ∨ code = 4 ∨ code = 5 := by omega
  rcases hcases with rfl | rfl | rfl | rfl | rfl
  · rw [if_pos hbad]
  · rw [if_neg (hpass 1 (by omega)), if_pos hbad]
  · rw [if_neg (hpass 1 (by omega)), if_neg (hpass 2 (by omega)), if_pos hbad]
  · rw [if_neg (hpass 1 (by omega)), if_neg (hpass 2 (by omega)), if_neg (hpass 3 (by omega)), if_pos hbad]
  · rw [if_neg (hpass 1 (by omega)), if_neg (hpass 2 (by omega)), if_neg (hpass 3 (by omega)), if_neg (hpass 4 (by omega)),
      if_pos hbad]

/-! ### The validation, slot by slot (R10, R11) -/

theorem judgeWords_add (s : State) : ∀ (m n : Nat) (run : AdvanceRun),
    s.judgeWords (m + n) run = s.judgeWords n (s.judgeWords m run)
  | 0, n, run => by rw [Nat.zero_add]; rfl
  | m + 1, n, run => by
    rw [Nat.add_right_comm]
    exact judgeWords_add s m n (s.judgeWord run)

/-- A run that has found a bad slot, or has judged all, stays. -/
theorem judgeWords_stays (s : State) {run : AdvanceRun} (h : run.bad.isSome = true ∨ run.length ≤ run.judged) :
    ∀ n, s.judgeWords n run = run
  | 0 => rfl
  | n + 1 => by
    have hword : s.judgeWord run = run := by
      unfold State.judgeWord
      rw [if_pos (by simpa using h)]
    rw [State.judgeWords, hword, judgeWords_stays s h n]

/-- A word that does not complete a slot is kept. -/
theorem judgeWord_part {s : State} {run : AdvanceRun} (hbad : run.bad = none) (hmore : run.judged < run.length)
    (hpart : run.part.length < 3) : s.judgeWord run = { run with part := run.part ++
      [s.wordAt ((s.ring run.ring).slotAddr (run.start + BitVec.ofNat 32 run.judged) + addr (4 * run.part.length))] } := by
  unfold State.judgeWord
  rw [if_neg (by simp [hbad, hmore])]
  dsimp only
  split
  · rename_i w0 w1 w2 w3 heq
    have hlength := congrArg List.length heq
    simp only [List.length_append, List.length_cons, List.length_nil] at hlength
    omega
  · rfl

/-- Four words judge one slot. -/
theorem judgeWords_slot {s : State} {run : AdvanceRun} (hbad : run.bad = none) (hmore : run.judged < run.length)
    (hpart : run.part = []) : s.judgeWords 4 run =
      match s.slotCheck (s.slotAt (s.ring run.ring) (run.start + BitVec.ofNat 32 run.judged)) with
      | none => { run with judged := run.judged + 1 }
      | some c => { run with bad := some (run.judged, c) } := by
  obtain ⟨ring, start, length, judged, part, bad⟩ := run
  obtain rfl : bad = none := hbad
  obtain rfl : part = [] := hpart
  have hmore : judged < length := hmore
  unfold State.judgeWords
  rw [judgeWord_part rfl hmore (by simp)]
  unfold State.judgeWords
  rw [judgeWord_part rfl hmore (by simp)]
  unfold State.judgeWords
  rw [judgeWord_part rfl hmore (by simp)]
  unfold State.judgeWords State.judgeWords State.judgeWord
  rw [if_neg (by simp [hmore])]
  have haddr : (s.ring ring).slotAddr (start + BitVec.ofNat 32 judged) + addr 0 =
      (s.ring ring).slotAddr (start + BitVec.ofNat 32 judged) := BitVec.add_zero _
  simp only [List.nil_append, List.cons_append, List.length_nil, List.length_cons, Nat.mul_zero, haddr]
  rfl

/-- With the slots below `k` all passing, 4 k words judge them. -/
theorem judgeWords_passing {s : State} {r : RingIdx} {start : Seq} {n : Nat} : ∀ k, k ≤ n →
    (∀ i c, i < k → 1 ≤ c → c ≤ 5 → s.slotPasses r (start + BitVec.ofNat 32 i) c) →
    s.judgeWords (4 * k) { ring := r, start := start, length := n, judged := 0, part := [], bad := none } =
      { ring := r, start := start, length := n, judged := k, part := [], bad := none }
  | 0, _, _ => rfl
  | k + 1, hk, hpass => by
    rw [Nat.mul_add, judgeWords_add, judgeWords_passing k (by omega) fun i c hi => hpass i c (by omega),
      judgeWords_slot rfl (Nat.lt_of_succ_le hk) rfl]
    dsimp only
    rw [slotCheck_of_passes fun c => hpass k c (Nat.lt_succ_self k)]

theorem badDescriptorRefusesAdvance : Part.BadDescriptorRefusesAdvance := by
  intro s r start n k code hslot hk hlo hhi hpass hbefore hbad
  have hwords : 4 * n = 4 * k + (4 + 4 * (n - k - 1)) := by omega
  have hrun : (s.judgeWords (4 * n) { ring := r, start := start, length := n, judged := 0, part := [], bad := none }).bad =
      some (k, code) := by
    rw [hwords, judgeWords_add, judgeWords_passing k hk.le hpass, judgeWords_add, judgeWords_slot rfl hk rfl]
    dsimp only
    rw [slotCheck_of_fails hlo hhi hbefore hbad, judgeWords_stays s (.inl rfl)]
  change Host.Outcome.next (completeAdvance s) = _
  unfold completeAdvance
  rw [hslot]
  dsimp only
  rw [hrun]

/-! ### The publication (R12) -/

/-- The sequence fields are written, and nothing else changes. -/
theorem writeSequences_eq (g : Ring) : ∀ (l : List Seq) (s : State),
    l.foldl (State.writeSequence g) s = { s with memory := (l.foldl (State.writeSequence g) s).memory }
  | [], _ => rfl
  | q :: l, s => by
    rw [List.foldl_cons, writeSequences_eq g l, State.writeSequence, putBytes_eq]

theorem advanced_commit (g : Ring) (n : Nat) : (g.advanced n).commit =
    if seqBefore g.commit (g.advanced n).reclaim then (g.advanced n).reclaim else g.commit := rfl

theorem advanced_reclaim {g : Ring} (n : Nat) (hroster : g.roster = []) (hretain : g.retain = false) :
    (g.advanced n).reclaim = g.tail + BitVec.ofNat 32 n := by
  refine (reclaimValue_nil (g := { g with tail := g.tail + BitVec.ofNat 32 n, announcePending := true }) hroster).trans ?_
  rw [hretain]
  rfl

theorem advancePublishes : Part.AdvancePublishes := by
  intro s r start n hslot hpass
  have hrun : (s.judgeWords (4 * n) { ring := r, start := start, length := n, judged := 0, part := [], bad := none }).bad =
      none := by
    rw [judgeWords_passing n (Nat.le_refl n) hpass]
  refine ⟨completeAdvance s, rfl, ?_⟩
  unfold completeAdvance
  rw [hslot]
  dsimp only
  rw [hrun]
  dsimp only
  unfold AdvanceRun.sequences
  dsimp only
  rw [writeSequences_eq]
  have hring (m : Memory) : (({ s with memory := m } : State).modRing r fun g => g.advanced n).ring r = (s.ring r).advanced n :=
    ring_modRing_self _ _ _
  refine ⟨rfl, rfl, ?_, rfl, ?_, ?_, fun hroster hretain => ?_, rfl, fun q hq => ?_, rfl, rfl, rfl, rfl, rfl⟩
  · rw [finish_lpc]
    dsimp only
    rw [hring]
    rfl
  · rw [ring_finish, hring]
    rfl
  · rw [ring_finish, hring]
    rfl
  · rw [ring_finish, hring]
    have hreclaim := advanced_reclaim n hroster hretain
    refine ⟨hreclaim, fun hbefore => ?_⟩
    rw [advanced_commit, hreclaim]
    exact if_pos hbefore
  · rw [ring_finish, ring_modRing_ne _ _ (Ne.symm hq)]
    rfl

/-- Settles O9. -/
theorem advanceValidation : Obligations.AdvanceValidation := ⟨badDescriptorRefusesAdvance, advancePublishes⟩

end Sys2Proof.Machine
end

section
/-! PROOFS. The port: RING_STATUS (R22), SUB_STATUS (R47), ACCEPT (R99), RETIRE (R100 to R102), the notice queue (R183 to R186)
and the window on station memory (R178, R179). -/
namespace Sys2Proof.Machine

/-! ### RING_STATUS (R22) -/

theorem exec_ringStatus_of_ready {s : State} (h : s.ready) (ring view : Word) :
    exec (.ringStatus ring view) s = .next (takeRingStatus ring view (s.args2 6 ring view)) :=
  congrArg Host.Outcome.next (issue_two_words h (by decide) (by decide) ring view)

theorem takeRingStatus_of_no_ring {ring : Word} (h : 8 ≤ ring.toNat) (view : Word) (s : State) :
    takeRingStatus ring view s = s.finish .badArg 0 0 := by
  simp only [takeRingStatus, ringOfWord_of_le h, State.refuse]

theorem takeRingStatus_of_no_view {view : Word} (h : 1 < view.toNat) (ring : Word) (s : State) :
    takeRingStatus ring view s = s.finish .badArg 0 0 := by
  have hview (g : Ring) : g.view view = none := by
    rw [Ring.view, if_neg (by rintro rfl; exact absurd h (by decide)), if_neg (by rintro rfl; exact absurd h (by decide))]
  cases hring : ringOfWord ring with
  | none => simp only [takeRingStatus, hring, State.refuse]
  | some r => simp only [takeRingStatus, hring, hview, State.refuse]

theorem takeRingStatus_of_view {ring view : Word} {r : RingIdx} {s : State} {w0 w1 : Word} (hring : ring.toNat = r.val)
    (hview : (s.ring r).view view = some (w0, w1)) : takeRingStatus ring view s = s.finish .ok w0 w1 := by
  simp only [takeRingStatus, ringOfWord_of_eq hring, hview]

/-- Settles O12. -/
theorem ringStatusWords : Obligations.RingStatusWords := by
  intro ring view s hs
  dsimp only
  simp only [exec_ringStatus_of_ready hs, Host.Outcome.next.injEq]
  refine ⟨?_, fun r hring => ⟨fun hview => ?_, fun hview => ?_⟩⟩
  · rintro (h | h)
    · exact takeRingStatus_of_no_ring h _ _
    · exact takeRingStatus_of_no_view h _ _
  · subst hview
    refine ⟨(s.ring r).statusWord, takeRingStatus_of_view (s := s.args2 6 ring 0) hring rfl, ?_⟩
    unfold Ring.statusWord
    simp (disch := omega) only [BitVec.extractLsb'_append_eq_of_le, BitVec.extractLsb'_append_eq_of_add_le,
      BitVec.getLsbD_append]
    simp
  · subst hview
    refine ⟨_, _, takeRingStatus_of_view (s := s.args2 6 ring 1) hring rfl, ?_⟩
    rw [args2_ring]
    unfold Ring.areaWord
    simp (disch := omega) only [BitVec.extractLsb'_append_eq_of_le, BitVec.extractLsb'_append_eq_of_add_le,
      BitVec.getLsbD_append]
    simp

/-! ### SUB_STATUS (R47) -/

theorem exec_subStatus_of_ready {s : State} (h : s.ready) (w0 view : Word) :
    exec (.subStatus w0 view) s = .next (takeSubStatus w0 view (s.args2 11 w0 view)) :=
  congrArg Host.Outcome.next (issue_two_words h (by decide) (by decide) w0 view)

@[simp] theorem args2_sub (s : State) (code : Byte) (w0 w1 : Word) (i : SubIdx) : (s.args2 code w0 w1).sub i = s.sub i := rfl

theorem takeSubStatus_of_no_sub {w0 : Word} (h : 24 ≤ w0.toNat) (view : Word) (s : State) :
    takeSubStatus w0 view s = s.finish .badArg 0 0 := by
  simp only [takeSubStatus, subOfWord_of_le h, State.refuse]

theorem subView_of_no_view (s : State) (i : SubIdx) {view : Word} (h : 4 < view.toNat) : s.subView i view = none := by
  unfold State.subView
  split <;> first | omega | rfl

theorem takeSubStatus_of_no_view {view : Word} (h : 4 < view.toNat) (w0 : Word) (s : State) :
    takeSubStatus w0 view s = s.finish .badArg 0 0 := by
  cases hsub : subOfWord w0 with
  | none => simp only [takeSubStatus, hsub, State.refuse]
  | some i => simp only [takeSubStatus, hsub, subView_of_no_view s i h, State.refuse]

theorem takeSubStatus_of_view {w0 view : Word} {i : SubIdx} {s : State} {r0 r1 : Word} (hsub : w0.toNat = i.val)
    (hview : s.subView i view = some (r0, r1)) : takeSubStatus w0 view s = s.finish .ok r0 r1 := by
  simp only [takeSubStatus, subOfWord_of_eq hsub, hview]

/-- Settles O17. -/
theorem subStatusWords : Obligations.SubStatusWords := by
  intro w0 view s hs
  dsimp only
  simp only [exec_subStatus_of_ready hs, Host.Outcome.next.injEq]
  refine ⟨?_, fun i hsub => ⟨fun hview => ?_, fun hview => ?_, fun hview => ?_, fun hview => ?_, fun hview => ?_⟩⟩
  · rintro (h | h)
    · exact takeSubStatus_of_no_sub h _ _
    · exact takeSubStatus_of_no_view h _ _
  · subst hview
    refine ⟨s.subWord i, takeSubStatus_of_view (s := s.args2 11 w0 0) hsub rfl, ?_⟩
    unfold State.subWord ringField
    simp (disch := omega) only [BitVec.extractLsb'_append_eq_of_le, BitVec.extractLsb'_append_eq_of_add_le,
      BitVec.getLsbD_append, Nat.reduceSub, BitVec.extractLsb'_eq_self, Nat.reduceLT, if_true, if_false, BitVec.getLsbD_ofBool]
    simp
  · subst hview
    exact takeSubStatus_of_view (s := s.args2 11 w0 1) hsub rfl
  · subst hview
    exact takeSubStatus_of_view (s := s.args2 11 w0 2) hsub rfl
  · subst hview
    exact takeSubStatus_of_view (s := s.args2 11 w0 3) hsub rfl
  · subst hview
    exact takeSubStatus_of_view (s := s.args2 11 w0 4) hsub rfl

/-! ### ACCEPT (R99) -/

/-- Settles O18. -/
theorem acceptOutcomes : Obligations.AcceptOutcomes := by
  intro k s hs
  have hexec : exec (.accept k) s = .next (takeAccept k (s.args1 12 k)) :=
    congrArg Host.Outcome.next (issue_one_word hs (by decide) (by decide) k)
  dsimp only
  rw [hexec]
  exact ⟨fun h => congrArg Host.Outcome.next (if_pos h), fun h => congrArg Host.Outcome.next (if_neg (Nat.not_lt.2 h))⟩

/-! ### RETIRE (R100 to R102) -/

theorem exec_retire_of_ready {s : State} (h : s.ready) (w0 q : Word) :
    exec (.retire w0 q) s = .next (takeRetire w0 q (s.args2 13 w0 q)) :=
  congrArg Host.Outcome.next (issue_two_words h (by decide) (by decide) w0 q)

theorem takeRetire_of_no_sub {w0 : Word} (h : 24 ≤ w0.toNat) (q : Word) (s : State) :
    takeRetire w0 q s = s.finish .badArg 0 0 := by
  simp only [takeRetire, subOfWord_of_le h, State.refuse]

section
variable {w0 q : Word} {i : SubIdx} {s : State} (hsub : w0.toNat = i.val)
include hsub

theorem takeRetire_of_free (h : (s.sub i).state = .free) : takeRetire w0 q s = s.finish .state 0 0 := by
  simp only [takeRetire, subOfWord_of_eq hsub, if_pos h, State.refuse]

variable (hfree : (s.sub i).state ≠ .free)
include hfree

theorem takeRetire_of_order (h : q ≠ (s.sub i).rm ∨ (s.sub i).rm = (s.sub i).dp) :
    takeRetire w0 q s = s.finish .order (s.sub i).rm (s.sub i).dp := by
  simp only [takeRetire, subOfWord_of_eq hsub, if_neg hfree, if_pos h]

theorem takeRetire_of_rm (hq : q = (s.sub i).rm) (hdp : (s.sub i).rm ≠ (s.sub i).dp) : takeRetire w0 q s =
    (deliverAll (Machine.blockGrantRound (((s.mapBlocks (Block.retire i (s.sub i).rm)).modSub i fun x =>
      { x with rm := x.rm + 1 }).finish .ok ((s.sub i).rm + 1) 0))).batchTest i := by
  have hnot : ¬ (q ≠ (s.sub i).rm ∨ (s.sub i).rm = (s.sub i).dp) := not_or.2 ⟨not_not.2 hq, hdp⟩
  simp only [takeRetire, subOfWord_of_eq hsub, if_neg hfree, if_neg hnot]

end

theorem retireOutcomes : Part.RetireOutcomes := by
  intro w0 q s hs
  dsimp only
  simp only [exec_retire_of_ready hs, Host.Outcome.next.injEq]
  refine ⟨fun h => takeRetire_of_no_sub h q _, fun i hsub => ⟨fun h => ?_, fun hfree h => ?_, fun hfree hq hdp => ?_⟩⟩
  · exact takeRetire_of_free (s := s.args2 13 w0 q) hsub h
  · exact takeRetire_of_order (s := s.args2 13 w0 q) hsub hfree h
  · exact takeRetire_of_rm (s := s.args2 13 w0 q) hsub hfree hq hdp

theorem consuming_iff (b : Sub) : b.consuming = true ↔ b.state = .active ∨ b.state = .finishing := by
  simp [Sub.consuming]

theorem batchTest_condition (s : State) (i : SubIdx) :
    ((s.sub i).consuming && decide (s.config.releaseBatch ≤ ((s.sub i).rm - (s.sub i).lastReported).toNat)) = true ↔
      ((s.sub i).state = .active ∨ (s.sub i).state = .finishing) ∧
        s.config.releaseBatch ≤ ((s.sub i).rm - (s.sub i).lastReported).toNat := by
  rw [Bool.and_eq_true, consuming_iff, decide_eq_true_eq]

/-- Settles O19. -/
theorem retireAndBatchTest : Obligations.RetireAndBatchTest :=
  ⟨retireOutcomes, fun s i => ⟨fun h => if_pos ((batchTest_condition s i).2 h),
    fun h => if_neg (mt (batchTest_condition s i).1 h)⟩⟩

/-! ### The notice queue (R183 to R186) -/

theorem exec_ntc0Read {s : State} (h : s.lpc.state ≠ .reset) : exec (.ntc0Read false) s = .next s.readNotice := if_neg h

theorem readNotice_nil {s : State} (h : s.lpc.notices = []) :
    s.readNotice = { s with lpc := { s.lpc with ntc1 := 0, ld := 0 } } := by
  unfold State.readNotice
  rw [h]
  rfl

theorem readNotice_cons {s : State} {n : Notice} {rest : List Notice} (h : s.lpc.notices = n :: rest) : s.readNotice =
    if s.lpc.lost then { s with lpc := { s.lpc with
      notices := rest ++ [{ kind := .noticesLost, index := 0, reason := 0, value := s.lpc.dropped }],
      ntc1 := n.value, ld := n.ntc0, lost := false, dropped := 0 } }
    else { s with lpc := { s.lpc with notices := rest, ntc1 := n.value, ld := n.ntc0 } } := by
  unfold State.readNotice
  rw [h]
  rfl

theorem ntc0ReadTakesOldest : Part.Ntc0ReadTakesOldest := by
  intro s hs
  rw [exec_ntc0Read hs]
  refine ⟨fun h => by rw [readNotice_nil h], fun n rest h hlost => ?_, fun n rest h hlost => ?_, fun n => ?_⟩
  · rw [readNotice_cons h, hlost]
    rfl
  · rw [readNotice_cons h, if_pos hlost]
  · unfold Notice.ntc0
    simp (disch := omega) only [BitVec.extractLsb'_append_eq_of_le, BitVec.extractLsb'_append_eq_of_add_le]
    simp

theorem ntc0ReadWithoutEffect : Part.Ntc0ReadWithoutEffect := by
  intro both s h
  by_cases hs : s.lpc.state = .reset
  · exact if_pos hs
  · obtain rfl := h.resolve_left hs
    exact if_neg hs

/-- The dropped count stops at 2^32 − 1 (R184). -/
theorem dropped_saturates (d : Word) :
    (if d = 0xFFFFFFFF then 0xFFFFFFFF else d + 1) = BitVec.ofNat 32 (min (d.toNat + 1) 4294967295) := by
  have := d.isLt
  split
  · rename_i h
    rw [h]
    rfl
  · rename_i h
    have hd : d.toNat ≠ 4294967295 := fun e => h (BitVec.eq_of_toNat_eq e)
    rw [Nat.min_eq_left (by omega), BitVec.ofNat_add, BitVec.ofNat_toNat, BitVec.setWidth_eq]
    rfl

theorem noticePostedOrDropped : Part.NoticePostedOrDropped := by
  intro s n
  refine ⟨fun h => if_pos h, fun h => (if_neg (Nat.not_lt.2 h)).trans ?_⟩
  rw [dropped_saturates]

/-- Settles O21. -/
theorem noticeQueueOperations : Obligations.NoticeQueueOperations :=
  ⟨ntc0ReadTakesOldest, ntc0ReadWithoutEffect, noticePostedOrDropped⟩

/-! ### The window on station memory (R179) -/

/-- Byte `k` of a run of writes is the `k`-th byte written, where the run is no longer than memory. -/
theorem byteAt_putBytes : ∀ {bs : List Byte} {s : State} {a : Addr} {k : Nat},
    s.memory.wf = true → bs.length ≤ 262144 → (hk : k < bs.length) → (s.putBytes a bs).byteAt (a + addr k) = bs[k]
  | [], _, _, _, _, _, hk => absurd hk (by simp)
  | b :: bs, s, a, 0, hwf, hlen, _ => by
    rw [show a + addr 0 = a from BitVec.add_zero a, State.putBytes, byteAt_putBytes_outside]
    · exact byteAt_putByte_self s a b hwf
    · intro j hj e
      have hlen : j + 1 < 262144 := by simp only [List.length_cons] at hlen; omega
      have := congrArg BitVec.toNat e
      simp only [addr, BitVec.ofNat_eq_ofNat, BitVec.toNat_add, BitVec.toNat_ofNat] at this
      have := a.isLt
      omega
  | b :: bs, s, a, k + 1, hwf, hlen, hk => by
    have haddr : a + addr (k + 1) = a + 1 + addr k := by
      rw [BitVec.add_assoc]
      congr 1
      simp [addr, BitVec.ofNat_add, BitVec.add_comm]
    rw [haddr, State.putBytes, byteAt_putBytes (wf_putByte _ b hwf) (by simp only [List.length_cons] at hlen; omega)
      (by simpa using hk)]
    rfl

theorem word_wordBytes (w : Word) :
    word (w.extractLsb' 0 8) (w.extractLsb' 8 8) (w.extractLsb' 16 8) (w.extractLsb' 24 8) = w := by
  unfold word
  rw [BitVec.extractLsb'_append_extractLsb'_eq_extractLsb' (by rfl), BitVec.extractLsb'_append_extractLsb'_eq_extractLsb' (by rfl),
    BitVec.extractLsb'_append_extractLsb'_eq_extractLsb' (by rfl)]
  exact BitVec.extractLsb'_eq_self

/-- The four bytes of a word, read back as a word. -/
theorem wordAt_putBytes {s : State} (a : Addr) (w : Word) (h : s.memory.wf = true) :
    (s.putBytes a (wordBytes w)).wordAt a = w := by
  have hbyte (k : Nat) (hk : k < 4) := byteAt_putBytes (s := s) (a := a) (bs := wordBytes w) (k := k) h (by simp [wordBytes]) hk
  have h0 := hbyte 0 (by omega)
  rw [show a + addr 0 = a from BitVec.add_zero a] at h0
  unfold State.wordAt
  rw [h0, show a + 1 = a + addr 1 from rfl, hbyte 1 (by omega), show a + 2 = a + addr 2 from rfl, hbyte 2 (by omega),
    show a + 3 = a + addr 3 from rfl, hbyte 3 (by omega)]
  exact word_wordBytes w

/-- The offset of a word of memory. -/
theorem wordAddr_toNat (la : Half) : (la ++ 0#2 : Addr).toNat = 4 * la.toNat := by
  rw [BitVec.toNat_append]
  simp [Nat.shiftLeft_eq, Nat.mul_comm]

theorem wordAddr_add (la : Half) (k : Nat) : (la ++ 0#2 : Addr) + addr k = addr (4 * la.toNat + k) := by
  rw [addr, addr, BitVec.ofNat_add, ← wordAddr_toNat, BitVec.ofNat_toNat, BitVec.setWidth_eq]

/-- A local write where neither START nor an ADVANCE reads. -/
theorem execLocalMemoryAccess_write {s : State} (hreset : s.lpc.state ≠ .reset) (hidle : s.lpc.slot = .idle) (la : Half)
    (w : Word) : exec (.localMemoryAccess false true la w) s = .next (s.putBytes (la ++ 0#2) (wordBytes w)) := by
  have hcapture : s.captureStartWord la = s := by
    unfold State.captureStartWord
    rw [hidle]
  change execLocalMemoryAccess false true la w s = _
  unfold execLocalMemoryAccess
  rw [if_neg hreset]
  dsimp only
  rw [hcapture, progressValidation_of_idle hidle]

theorem execLocalMemoryAccess_read {s : State} (hreset : s.lpc.state ≠ .reset) (la : Half) (w : Word) :
    exec (.localMemoryAccess true false la w) s = .next (s.withLd (s.wordAt (la ++ 0#2))) := if_neg hreset

theorem memoryWriteThenRead : Part.MemoryWriteThenRead := by
  intro la w w' s hreset hidle hwf
  refine ⟨_, execLocalMemoryAccess_write hreset hidle la w, putBytes_eq _ _ _, ?_, fun k hk => ?_, fun a ha => ?_⟩
  · rw [execLocalMemoryAccess_read (by rwa [putBytes_lpc]), wordAt_putBytes _ _ hwf]
    rfl
  · rw [← wordAddr_add, byteAt_putBytes hwf (by simp [wordBytes]) (by simpa [wordBytes] using hk)]
    match k, hk with
    | 0, _ | 1, _ | 2, _ | 3, _ => rfl
  · refine byteAt_putBytes_outside a _ _ _ fun k hk e => ?_
    have hk : k < 4 := hk
    have hla := la.isLt
    have := congrArg BitVec.toNat (e.trans (wordAddr_add la k))
    rw [addr, BitVec.toNat_ofNat, Nat.mod_eq_of_lt (by omega)] at this
    omega

theorem memoryAccessWithoutEffect : Part.MemoryAccessWithoutEffect := by
  intro lrd lwr la w s
  refine ⟨fun hreset hlrd => ?_, fun hreset hlrd => ?_, fun hlrd hlwr => ?_⟩
  · subst hlrd
    exact if_pos hreset
  · subst hlrd
    exact if_pos hreset
  · subst hlrd hlwr
    by_cases hreset : s.lpc.state = .reset
    · exact if_pos hreset
    · exact if_neg hreset

/-- Settles O22. -/
theorem localMemoryPort : Obligations.LocalMemoryPort := ⟨memoryWriteThenRead, memoryAccessWithoutEffect⟩

/-! ### A local write during START (R178) -/

/-- A word whose four bytes a run of writes does not reach. -/
theorem wordAt_putBytes_outside {s : State} {a x : Addr} {bs : List Byte}
    (h : ∀ j, j < 4 → ∀ k, k < bs.length → x + addr j ≠ a + addr k) : (s.putBytes a bs).wordAt x = s.wordAt x := by
  have hbyte (j : Nat) (hj : j < 4) := byteAt_putBytes_outside (x + addr j) bs s a (h j hj)
  have h0 := hbyte 0 (by omega)
  rw [show x + addr 0 = x from BitVec.add_zero x] at h0
  unfold State.wordAt
  rw [h0, show x + 1 = x + addr 1 from rfl, hbyte 1 (by omega), show x + 2 = x + addr 2 from rfl, hbyte 2 (by omega),
    show x + 3 = x + addr 3 from rfl, hbyte 3 (by omega)]

theorem startWord_of_memory {s t : State} (h : t.memory = s.memory) (captured : List (Nat × Word)) (k : Nat) :
    t.startWord captured k = s.startWord captured k := by
  unfold State.startWord State.wordAt State.byteAt
  rw [h]

/-- A local write leaves the other words of the record as START reads them. -/
theorem startWord_putBytes_ne {s : State} {captured : List (Nat × Word)} {la : Half} {w : Word} {k : Nat} (hla : la.toNat < 16)
    (hk : k < 16) (hne : k ≠ la.toNat) :
    (s.putBytes (la ++ 0#2) (wordBytes w)).startWord captured k = s.startWord captured k := by
  unfold State.startWord
  split
  · rfl
  · refine wordAt_putBytes_outside fun j hj i hi e => ?_
    have hi : i < 4 := hi
    rw [wordAddr_add, addr, addr, ← BitVec.ofNat_add, addr] at e
    have := congrArg BitVec.toNat e
    rw [BitVec.toNat_ofNat, BitVec.toNat_ofNat, Nat.mod_eq_of_lt (by omega), Nat.mod_eq_of_lt (by omega)] at this
    omega

theorem wordAddr_eq (la : Half) : (la ++ 0#2 : Addr) = addr (4 * la.toNat) := by
  have := wordAddr_add la 0
  rwa [show (la ++ 0#2 : Addr) + addr 0 = la ++ 0#2 from BitVec.add_zero _] at this

/-- The word written is the value it was captured with, or the new one. -/
theorem startWord_putBytes_self {s : State} {captured : List (Nat × Word)} {la : Half} {w : Word} (hwf : s.memory.wf = true) :
    (s.putBytes (la ++ 0#2) (wordBytes w)).startWord captured la.toNat = s.startWord captured la.toNat ∨
      (s.putBytes (la ++ 0#2) (wordBytes w)).startWord captured la.toNat = w := by
  unfold State.startWord
  split
  · exact .inl rfl
  · rw [← wordAddr_eq]
    exact .inr (wordAt_putBytes _ _ hwf)

/-- Capturing the value that START has read changes no word of the record. -/
theorem startWord_captured (s : State) (captured : List (Nat × Word)) (la : Half) (k : Nat) :
    s.startWord (captured ++ [(la.toNat, s.wordAt (la ++ 0#2))]) k = s.startWord captured k := by
  unfold State.startWord
  rw [List.find?_append]
  cases hfind : captured.find? fun p => p.1 == k with
  | some p => rfl
  | none =>
    by_cases hk : la.toNat = k
    · subst hk
      simp [wordAddr_eq]
    · simp [hk]

/-- Settles O23. -/
theorem writeDuringStart : Obligations.WriteDuringStart := by
  intro la w captured s hconfig hslot hla hwf
  have hreset : s.lpc.state ≠ .reset := by rw [hconfig]; decide
  have hexec : exec (.localMemoryAccess false true la w) s =
      .next ((progressValidation (s.captureStartWord la)).putBytes (la ++ 0#2) (wordBytes w)) := if_neg hreset
  have hcapture : ∃ captured' n, progressValidation (s.captureStartWord la) =
      { s with lpc := { s.lpc with slot := .starting captured' }, freeIndex := n } ∧
      ∀ k, s.startWord captured' k = s.startWord captured k := by
    have hstay (captured' : List (Nat × Word)) (n : Nat) :
        progressValidation { s with lpc := { s.lpc with slot := .starting captured' }, freeIndex := n } =
          { s with lpc := { s.lpc with slot := .starting captured' }, freeIndex := n } := rfl
    unfold State.captureStartWord
    rw [hslot]
    dsimp only
    split
    · rw [hstay]
      refine ⟨_, _, rfl, fun k => ?_⟩
      split
      · exact startWord_captured s captured la k
      · rfl
    · refine ⟨captured, s.freeIndex, ?_, fun _ => rfl⟩
      rw [progressValidation_stays (fun _ hr => SlotState.noConfusion (hslot.symm.trans hr)), ← hslot]
  obtain ⟨captured', n, hstate, hwords⟩ := hcapture
  rw [hstate] at hexec
  refine ⟨_, captured', hexec, by rw [putBytes_lpc], ?_, fun k hk hne => ?_⟩
  · rw [← hwords]
    exact startWord_putBytes_self hwf
  · rw [← hwords]
    exact startWord_putBytes_ne hla hk hne

end Sys2Proof.Machine
end

section
/-! PROOFS. The rosters: the entry of a station, a removal (R126), and the frames and expiries that lead to one (R131 to R137,
R141, R144). -/
namespace Sys2Proof.Machine

/-! ### The entry of a station (R125) -/

theorem member_eq_none {g : Ring} {h : Station} : g.member h = none ↔ ∀ m ∈ g.roster, m.station ≠ h := by
  unfold Ring.member
  rw [List.find?_eq_none]
  simp

theorem member_eq_some {g : Ring} {h : Station} {m : Member} (hm : g.member h = some m) : m ∈ g.roster ∧ m.station = h :=
  ⟨List.mem_of_find?_eq_some hm, by simpa using List.find?_some hm⟩

/-- In a roster in station order a station has one entry. -/
theorem eq_of_station {l : List Member} (h : rosterOrdered l) {m n : Member} (hm : m ∈ l) (hn : n ∈ l)
    (hstation : m.station = n.station) : m = n := by
  induction l with
  | nil => exact absurd hm (by simp)
  | cons x xs ih =>
    obtain ⟨hx, hxs⟩ := h
    rcases List.mem_cons.1 hm with rfl | hmx
    · rcases List.mem_cons.1 hn with rfl | hnx
      · rfl
      · exact absurd (hx n hnx) (by rw [hstation]; exact Nat.lt_irrefl _)
    · rcases List.mem_cons.1 hn with rfl | hnx
      · exact absurd (hx m hmx) (by rw [hstation]; exact Nat.lt_irrefl _)
      · exact ih hxs hmx hnx

theorem member_of_mem {g : Ring} {m : Member} (h : rosterOrdered g.roster) (hm : m ∈ g.roster) :
    g.member m.station = some m := by
  cases hfind : g.member m.station with
  | none => exact absurd rfl (member_eq_none.1 hfind m hm)
  | some n =>
    obtain ⟨hn, hstation⟩ := member_eq_some hfind
    rw [eq_of_station h hn hm hstation]

@[simp] theorem ringField_toNat (r : RingIdx) : (ringField r).toNat = r.val := by
  unfold ringField
  rw [BitVec.toNat_ofNat, Nat.mod_eq_of_lt r.isLt]

theorem ringOfField_eq {f : BitVec 3} {r : RingIdx} (h : f.toNat = r.val) : ringOfField f = r :=
  ((ring_eq_ringOfField r f).2 h.symm).symm

/-! ### A removal (R126) -/

/-- The ring record after the removal of a station: a WITHDRAWING ring left with no member closes. -/
def Ring.removed (g : Ring) (h : Station) : Ring :=
  if (g.dropMember h).state == .withdrawing && (g.dropMember h).roster.isEmpty then (g.dropMember h).close else g.dropMember h

theorem removeMember_ring (s : State) (r : RingIdx) (h : Station) (k : NoticeKind) (reason : Byte) :
    (s.removeMember r h k reason).ring r = (s.ring r).removed h := by
  have hring : ((s.modRing r fun g => g.dropMember h).postRing k r reason (h.setWidth 32)).ring r = (s.ring r).dropMember h := by
    unfold State.postRing
    rw [ring_congr (post_pub _ _), ring_modRing_self]
  unfold State.removeMember Ring.removed
  dsimp only
  rw [hring]
  split
  · rw [closeRing_ring, hring]
  · exact hring

theorem closeRing_ring_ne (s : State) {r q : RingIdx} (reason : Byte) (h : q ≠ r) :
    (s.closeRing r reason).ring q = s.ring q := by
  unfold State.closeRing State.postRing
  rw [ring_congr (post_pub _ _), ring_modRing_ne _ _ (Ne.symm h), ring_congr (progressValidation_pub s)]

theorem removeMember_ring_ne (s : State) {r q : RingIdx} (h : Station) (k : NoticeKind) (reason : Byte) (hq : q ≠ r) :
    (s.removeMember r h k reason).ring q = s.ring q := by
  have hring : ((s.modRing r fun g => g.dropMember h).postRing k r reason (h.setWidth 32)).ring q = s.ring q := by
    unfold State.postRing
    rw [ring_congr (post_pub _ _), ring_modRing_ne _ _ (Ne.symm hq)]
  unfold State.removeMember
  dsimp only
  split
  · rw [closeRing_ring_ne _ _ hq, hring]
  · exact hring

/-- What a removal or a close leaves alone: every unit but LPC and PUB, and station memory. -/
structure RosterSide (s t : State) : Prop where
  subs   : t.subs = s.subs
  dpc    : t.dpc = s.dpc
  rqt    : t.rqt = s.rqt
  pdu    : t.pdu = s.pdu
  liu    : t.liu = s.liu
  memory : t.memory = s.memory

theorem RosterSide.refl (s : State) : RosterSide s s := ⟨rfl, rfl, rfl, rfl, rfl, rfl⟩

theorem RosterSide.trans {s t u : State} (h : RosterSide s t) (k : RosterSide t u) : RosterSide s u :=
  ⟨k.subs.trans h.subs, k.dpc.trans h.dpc, k.rqt.trans h.rqt, k.pdu.trans h.pdu, k.liu.trans h.liu, k.memory.trans h.memory⟩

theorem modRing_rosterSide (s : State) (r : RingIdx) (f : Ring → Ring) : RosterSide s (s.modRing r f) := ⟨rfl, rfl, rfl, rfl, rfl, rfl⟩

theorem postRing_rosterSide (s : State) (k : NoticeKind) (r : RingIdx) (b : Byte) (w : Word) : RosterSide s (s.postRing k r b w) :=
  ⟨post_subs _ _, post_dpc _ _, post_rqt _ _, post_pdu _ _, post_liu _ _, post_memory _ _⟩

theorem progressValidation_rosterSide (s : State) : RosterSide s (progressValidation s) := by
  unfold progressValidation
  split <;> exact ⟨rfl, rfl, rfl, rfl, rfl, rfl⟩

theorem closeRing_rosterSide (s : State) (r : RingIdx) (reason : Byte) : RosterSide s (s.closeRing r reason) :=
  (progressValidation_rosterSide s).trans ((modRing_rosterSide _ _ _).trans (postRing_rosterSide _ _ _ _ _))

theorem removeMember_rosterSide (s : State) (r : RingIdx) (h : Station) (k : NoticeKind) (reason : Byte) :
    RosterSide s (s.removeMember r h k reason) := by
  have hpost := (modRing_rosterSide s r fun g => g.dropMember h).trans (postRing_rosterSide _ k r reason (h.setWidth 32))
  unfold State.removeMember
  dsimp only
  split
  · exact hpost.trans (closeRing_rosterSide _ _ _)
  · exact hpost

/-- A removal from a ring that is not WITHDRAWING closes nothing. -/
theorem removeMember_of_not_withdrawing {s : State} {r : RingIdx} (hstate : (s.ring r).state ≠ .withdrawing) (h : Station)
    (k : NoticeKind) (reason : Byte) : s.removeMember r h k reason =
      (s.modRing r fun g => g.dropMember h).postRing k r reason (h.setWidth 32) := by
  have hring : (((s.modRing r fun g => g.dropMember h).postRing k r reason (h.setWidth 32)).ring r).state = (s.ring r).state := by
    unfold State.postRing
    rw [ring_congr (post_pub _ _), ring_modRing_self]
    rfl
  unfold State.removeMember
  dsimp only
  rw [if_neg]
  rw [hring]
  simp [hstate]

theorem post_of_room {s : State} (n : Notice) (h : s.lpc.notices.length < 64) :
    s.post n = { s with lpc := { s.lpc with notices := s.lpc.notices ++ [n] } } := if_pos h

theorem postRing_ring (s : State) (k : NoticeKind) (r q : RingIdx) (b : Byte) (w : Word) :
    (s.postRing k r b w).ring q = s.ring q := ring_congr (post_pub _ _) q

/-- A notice of a ring with room in the queue. -/
theorem postRing_notices {s : State} (k : NoticeKind) (r : RingIdx) (b : Byte) (w : Word) (h : s.lpc.notices.length < 64) :
    (s.postRing k r b w).lpc.notices =
      s.lpc.notices ++ [{ kind := k, index := BitVec.ofNat 8 r.val, reason := b, value := w }] := by
  unfold State.postRing
  rw [post_of_room _ h]
  rfl

theorem progressValidation_notices (s : State) : (progressValidation s).lpc.notices = s.lpc.notices := by
  unfold progressValidation
  split <;> rfl

/-- RING_CLOSED counts the members that the close drops (R141). -/
theorem closeRing_notices {s : State} (r : RingIdx) (b : Byte) (h : s.lpc.notices.length < 64) :
    (s.closeRing r b).lpc.notices = s.lpc.notices ++
      [{ kind := .ringClosed, index := BitVec.ofNat 8 r.val, reason := b,
         value := BitVec.ofNat 32 (s.ring r).roster.length }] := by
  have hnotices : ((progressValidation s).modRing r Ring.close).lpc.notices = s.lpc.notices := progressValidation_notices s
  unfold State.closeRing
  rw [postRing_notices _ _ _ _ (by rw [hnotices]; exact h), hnotices]

/-! ### The expiry of a silence timer (R136) -/

theorem placeOneOff_of_room {s : State} (f : Frame) (h : s.liu.oneOff.length < 8) :
    s.placeOneOff f = { s with liu := { s.liu with oneOff := s.liu.oneOff ++ [f] } } := if_pos h

theorem silenceExpiryRemoves : Part.SilenceExpiryRemoves := by
  intro r h m s hm hstation hdue hordered hopen hnotices honeOff
  subst hstation
  have hmember := member_of_mem hordered hm
  have hexec : exec (.silenceExpiry r m.station) s = .next ((s.placeOneOff (s.evictFrame r m.station)).removeMember r m.station
      .memberEvicted EndReason.silent.byte) := by
    change execSilenceExpiry r m.station s = _
    unfold execSilenceExpiry
    rw [hmember]
    exact if_pos ((Timer.due_iff _).2 hdue)
  have hplaced := placeOneOff_of_room (s.evictFrame r m.station) honeOff
  have hring : (s.placeOneOff (s.evictFrame r m.station)).ring r = s.ring r := by rw [hplaced]; rfl
  have hremoved := removeMember_of_not_withdrawing (s := s.placeOneOff (s.evictFrame r m.station)) (r := r)
    (by rw [hring, hopen]; decide) m.station .memberEvicted EndReason.silent.byte
  have hside := removeMember_rosterSide (s.placeOneOff (s.evictFrame r m.station)) r m.station .memberEvicted
    EndReason.silent.byte
  have hdropped : ((s.placeOneOff (s.evictFrame r m.station)).removeMember r m.station .memberEvicted
      EndReason.silent.byte).ring r = (s.ring r).dropMember m.station := by
    rw [hremoved, postRing_ring, ring_modRing_self, hring]
  refine ⟨_, s.evictFrame r m.station, hexec, ?_, ?_, ?_, rfl, rfl, ringField_toNat r, rfl, ?_, fun q hq => ?_,
    hside.subs.trans ?_, hside.dpc.trans ?_, hside.rqt.trans ?_, hside.pdu.trans ?_, hside.memory.trans ?_⟩
  · rw [hdropped]
    rfl
  · rw [hdropped]
    exact hopen
  · rw [hside.liu, hplaced]
  · rw [hremoved, postRing_notices _ _ _ _ (by rw [modRing_lpc, hplaced]; exact hnotices), modRing_lpc, hplaced]
    rfl
  · rw [removeMember_ring_ne _ _ _ _ hq, hplaced]
    rfl
  all_goals rw [hplaced]

theorem silenceNotRunOut : Part.SilenceNotRunOut := by
  intro r h s hnot
  change execSilenceExpiry r h s = _
  unfold execSilenceExpiry
  split
  · rfl
  · rename_i m hmember
    obtain ⟨hm, hstation⟩ := member_eq_some hmember
    exact if_neg (mt (Timer.due_iff _).1 (hnot m hm hstation))

/-- Settles O29. -/
theorem silenceExpiryEvicts : Obligations.SilenceExpiryEvicts := ⟨silenceExpiryRemoves, silenceNotRunOut⟩

/-- Settles O30. -/
theorem drainExpiryCloses : Obligations.DrainExpiryCloses := by
  intro r s
  refine ⟨fun hdue hidle => ?_, fun hnot => if_neg (mt (Timer.due_iff _).1 hnot)⟩
  rw [show exec (.drainExpiry r) s = .next (s.closeRing r 1) from if_pos ((Timer.due_iff _).2 hdue), closeRing_of_idle hidle]
  rfl

/-! ### The Serve Queue (R144) -/

/-- Settles O36. -/
theorem requestEntersServeQueue : Obligations.RequestEntersServeQueue := by
  intro k a s haccepts
  have hexec : exec (.requestFrame k a) s = if s.pub.serveQueue.length < 16 then
      .next { s with pub := { s.pub with serveQueue := s.pub.serveQueue ++ [serveEntryOf k a.header] } } else .next s :=
    if_pos haccepts
  rw [hexec]
  refine ⟨fun h => ⟨_, if_pos h, rfl, rfl, rfl, rfl, rfl, rfl, ?_, ?_, ?_⟩, fun h => if_neg (Nat.not_lt.2 h)⟩ <;>
    (rintro rfl; rfl)

/-! ### A LEAVE (R134) -/

theorem compareRoster_of_stranger {s : State} {r : RingIdx} {h : Station} (inc : Half) (hnone : (s.ring r).member h = none) :
    s.compareRoster r h inc = (s, false) := by
  unfold State.compareRoster
  rw [hnone]

theorem compareRoster_of_member {s : State} {r : RingIdx} {h : Station} {inc : Half} {m : Member}
    (hmember : (s.ring r).member h = some m) (hinc : m.incarnation = inc) : s.compareRoster r h inc = (s, true) := by
  unfold State.compareRoster
  rw [hmember]
  exact if_pos hinc

/-- A LEAVE for an OPEN or WITHDRAWING ring, of its epoch or none, from a member. -/
theorem execLeaveFrame_of_member {a : Arrival} {r : RingIdx} {s : State} {m : Member} (haccepts : s.accepts .leave a = true)
    (hr : a.header.ring.toNat = r.val) (hopen : (s.ring r).state ≠ .closed)
    (hepoch : a.header.epoch = 0 ∨ a.header.epoch = (s.ring r).epoch)
    (hmember : (s.ring r).member a.header.source = some m) (hinc : m.incarnation = a.header.incarnation) :
    exec (.leaveFrame a) s = .next (s.removeMember r a.header.source .memberLeft 0) := by
  obtain rfl := ringOfField_eq hr
  have hnot : ¬ (a.header.epoch ≠ 0 ∧ a.header.epoch ≠ (s.ring (ringOfField a.header.ring)).epoch) := by
    rintro ⟨h0, h1⟩
    exact hepoch.elim h0 h1
  refine (if_pos haccepts).trans ((if_neg hopen).trans ((if_neg hnot).trans ?_))
  rw [compareRoster_of_member hmember hinc]

theorem leaveFrameRemovesMember : Part.LeaveFrameRemovesMember := by
  intro a r s haccepts hr
  refine ⟨fun h => ?_, fun hopen hepoch hordered m hm hstation hinc => ?_⟩
  · obtain rfl := ringOfField_eq hr
    refine (if_pos haccepts).trans ?_
    by_cases hclosed : (s.ring (ringOfField a.header.ring)).state = .closed
    · exact if_pos hclosed
    · refine (if_neg hclosed).trans ?_
      by_cases hepoch : a.header.epoch ≠ 0 ∧ a.header.epoch ≠ (s.ring (ringOfField a.header.ring)).epoch
      · exact if_pos hepoch
      · refine (if_neg hepoch).trans ?_
        have hnone := member_eq_none.2 ((h.resolve_left hclosed).resolve_left hepoch)
        rw [compareRoster_of_stranger _ hnone]
  · have hmember := member_of_mem hordered hm
    rw [hstation] at hmember
    rw [execLeaveFrame_of_member haccepts hr (by rw [hopen]; decide) hepoch hmember hinc,
      removeMember_of_not_withdrawing (by rw [hopen]; decide)]
    rfl

/-- A removal that empties the roster of a WITHDRAWING ring. -/
theorem removed_last {g : Ring} {m : Member} (hstate : g.state = .withdrawing) (hroster : g.roster = [m]) :
    g.removed m.station = (g.dropMember m.station).close := by
  have hempty : (g.dropMember m.station).roster = [] := by
    change g.roster.filter _ = []
    rw [hroster]
    simp
  unfold Ring.removed
  rw [if_pos]
  rw [hempty]
  simp [Ring.dropMember, hstate]

theorem removeMember_last_notices {s : State} {r : RingIdx} {m : Member} (hstate : (s.ring r).state = .withdrawing)
    (hroster : (s.ring r).roster = [m]) (k : NoticeKind) (reason : Byte) (hroom : s.lpc.notices.length < 63) :
    (s.removeMember r m.station k reason).lpc.notices = s.lpc.notices ++
      [{ kind := k, index := BitVec.ofNat 8 r.val, reason := reason, value := m.station.setWidth 32 },
       { kind := .ringClosed, index := BitVec.ofNat 8 r.val, reason := 0, value := 0 }] := by
  have hempty : ((s.ring r).dropMember m.station).roster = [] := by
    change (s.ring r).roster.filter _ = []
    rw [hroster]
    simp
  have hring : ((s.modRing r fun g => g.dropMember m.station).postRing k r reason (m.station.setWidth 32)).ring r =
      (s.ring r).dropMember m.station := by
    rw [postRing_ring, ring_modRing_self]
  have hdrop : ((s.ring r).dropMember m.station).state = .withdrawing := hstate
  have hpost := postRing_notices (s := s.modRing r fun g => g.dropMember m.station) k r reason (m.station.setWidth 32)
    (by rw [modRing_lpc]; omega)
  rw [modRing_lpc] at hpost
  unfold State.removeMember
  dsimp only
  rw [hring, hempty, hdrop, if_pos (by rfl), closeRing_notices _ _ (by
    rw [hpost, List.length_append, List.length_singleton]; omega), hpost, hring, hempty, List.append_assoc]
  rfl

theorem lastLeaveClosesWithdrawingRing : Part.LastLeaveClosesWithdrawingRing := by
  intro a r m s haccepts hr hstate hroster hstation hinc hepoch hroom
  have hmember : (s.ring r).member a.header.source = some m := by
    unfold Ring.member
    rw [hroster]
    simp [hstation]
  have hexec := execLeaveFrame_of_member haccepts hr (by rw [hstate]; decide) hepoch hmember hinc
  have hring := removeMember_ring s r a.header.source .memberLeft 0
  rw [← hstation, removed_last hstate hroster] at hring
  rw [← hstation] at hexec ⊢
  have hside := removeMember_rosterSide s r m.station .memberLeft 0
  refine ⟨_, hexec, ?_, ?_, ?_, ?_, ?_, ?_, removeMember_last_notices hstate hroster _ _ hroom,
    fun q hq => removeMember_ring_ne s _ _ _ hq, hside.subs, hside.liu, hside.memory⟩ <;> rw [hring] <;> rfl

/-- Settles O37. -/
theorem leaveFrameOutcomes : Obligations.LeaveFrameOutcomes := ⟨leaveFrameRemovesMember, lastLeaveClosesWithdrawingRing⟩

/-! ### A RELEASE (R131 to R133) -/

theorem modMember_mem {g : Ring} {h : Station} {m : Member} (f : Member → Member) (hm : m ∈ g.roster) (hstation : m.station = h) :
    f m ∈ (g.modMember h f).roster :=
  List.mem_map.2 ⟨m, hm, if_pos (beq_iff_eq.2 hstation)⟩

/-- A mark outside the closed interval from the member's mark to the commit point is passed over (R131). -/
theorem adoptMark_of_outside {g : Ring} {h : Station} {q : Seq} {m : Member} (hmember : g.member h = some m)
    (hq : (g.commit - m.mark).toNat < (q - m.mark).toNat) : g.adoptMark h q = g := by
  unfold Ring.adoptMark
  rw [hmember]
  exact if_neg (by simpa [inClosed] using hq)

theorem adoptMark_of_inside {g : Ring} {h : Station} {q : Seq} {m : Member} (hmember : g.member h = some m)
    (hq : (q - m.mark).toNat ≤ (g.commit - m.mark).toNat) :
    g.adoptMark h q = (g.modMember h fun y => { y with mark := q }).recompute := by
  unfold Ring.adoptMark
  rw [hmember]
  exact if_pos (by simpa [inClosed] using hq)

theorem adoptMark_tail (g : Ring) (h : Station) (q : Seq) : (g.adoptMark h q).tail = g.tail := by
  unfold Ring.adoptMark
  split
  · rfl
  · split <;> rfl

/-- The entry of the sender after a RELEASE: its mark adopted or kept. -/
theorem mem_adoptMark {g : Ring} {h : Station} (q : Seq) {m : Member} (hmember : g.member h = some m) :
    ∃ n ∈ (g.adoptMark h q).roster, n.station = h ∧ n.incarnation = m.incarnation ∧
      n.mark = if (q - m.mark).toNat ≤ (g.commit - m.mark).toNat then q else m.mark := by
  obtain ⟨hm, hstation⟩ := member_eq_some hmember
  by_cases hq : (q - m.mark).toNat ≤ (g.commit - m.mark).toNat
  · rw [adoptMark_of_inside hmember hq, if_pos hq]
    exact ⟨{ m with mark := q }, modMember_mem (fun y => { y with mark := q }) hm hstation, hstation, rfl, rfl⟩
  · rw [adoptMark_of_outside hmember (Nat.lt_of_not_le hq), if_neg hq]
    exact ⟨m, hm, hstation, rfl, rfl⟩

theorem restartSilence_ring (s : State) (r : RingIdx) (h : Station) :
    (s.restartSilence r h).ring r = (s.ring r).modMember h fun m => { m with silence := some s.config.silenceLimit } :=
  ring_modRing_self _ _ _

theorem releaseFrameOfMember {a : Arrival} {r : RingIdx} {s : State} {m : Member} (haccepts : s.accepts .release a = true)
    (hr : a.header.ring.toNat = r.val) (hepoch : a.header.epoch = (s.ring r).epoch)
    (hmember : (s.ring r).member a.header.source = some m) (hinc : m.incarnation = a.header.incarnation) :
    exec (.releaseFrame a) s = .next ((s.modRing r fun g =>
      g.adoptMark a.header.source a.header.seq).restartSilence r a.header.source) := by
  obtain rfl := ringOfField_eq hr
  refine (if_pos haccepts).trans ((if_neg (not_not.2 hepoch)).trans ?_)
  rw [compareRoster_of_member hmember hinc]

theorem releaseFrameOfStranger {a : Arrival} {r : RingIdx} {s : State} (haccepts : s.accepts .release a = true)
    (hr : a.header.ring.toNat = r.val) (hepoch : a.header.epoch = (s.ring r).epoch)
    (hnone : (s.ring r).member a.header.source = none) :
    exec (.releaseFrame a) s = .next (s.placeOneOff (s.evictFrame r a.header.source)) := by
  obtain rfl := ringOfField_eq hr
  refine (if_pos haccepts).trans ((if_neg (not_not.2 hepoch)).trans ?_)
  rw [compareRoster_of_stranger _ hnone]

/-- Settles O38. -/
theorem releaseFrameOutcomes : Obligations.ReleaseFrameOutcomes := by
  intro a r s haccepts hr
  refine ⟨fun hepoch => ?_, fun hepoch => ⟨fun hnone => ?_, fun hordered m hm hstation hinc => ?_⟩⟩
  · obtain rfl := ringOfField_eq hr
    exact (if_pos haccepts).trans (if_pos hepoch)
  · exact ⟨_, releaseFrameOfStranger haccepts hr hepoch (member_eq_none.2 hnone), rfl, rfl, ringField_toNat _, rfl⟩
  · have hmember := member_of_mem hordered hm
    rw [hstation] at hmember
    obtain ⟨n, hn, hnstation, hninc, hnmark⟩ := mem_adoptMark a.header.seq hmember
    have hring := restartSilence_ring (s.modRing r fun g => g.adoptMark a.header.source a.header.seq) r a.header.source
    rw [ring_modRing_self] at hring
    refine ⟨_, { n with silence := some s.config.silenceLimit }, releaseFrameOfMember haccepts hr hepoch hmember hinc, ?_,
      hnstation, rfl, hninc, fun hle => hnmark.trans (if_pos hle), fun hlt => ⟨hnmark.trans (if_neg (Nat.not_le.2 hlt)), ?_⟩,
      fun q hq => (ring_modRing_ne _ _ (Ne.symm hq)).trans (ring_modRing_ne _ _ (Ne.symm hq)), ?_, rfl⟩
    · rw [hring]
      exact modMember_mem (fun m => { m with silence := some s.config.silenceLimit }) hn hnstation
    · rw [hring, adoptMark_of_outside hmember hlt]
      exact ⟨rfl, rfl⟩
    · rw [hring]
      exact adoptMark_tail _ _ _

/-! ### A HELLO (R137) -/

/-- The ring record after a HELLO of a station. -/
def Ring.withoutStation (g : Ring) (h : Station) : Ring := if (g.member h).isSome then g.removed h else g

theorem helloAtRing_ring (h : Station) (s : State) (r : RingIdx) :
    (s.helloAtRing h r).ring r = (s.ring r).withoutStation h := by
  unfold State.helloAtRing Ring.withoutStation
  split
  · exact removeMember_ring _ _ _ _ _
  · rfl

theorem helloAtRing_ring_ne (h : Station) (s : State) {r q : RingIdx} (hq : q ≠ r) : (s.helloAtRing h r).ring q = s.ring q := by
  unfold State.helloAtRing
  split
  · exact removeMember_ring_ne _ _ _ _ hq
  · rfl

theorem helloAtRing_rosterSide (h : Station) (s : State) (r : RingIdx) : RosterSide s (s.helloAtRing h r) := by
  unfold State.helloAtRing
  split
  · exact removeMember_rosterSide _ _ _ _ _
  · exact RosterSide.refl s

theorem helloAtRings_rosterSide (h : Station) : ∀ (l : List RingIdx) (s : State),
    RosterSide s (l.foldl (State.helloAtRing h) s)
  | [], s => RosterSide.refl s
  | r :: l, s => (helloAtRing_rosterSide h s r).trans (helloAtRings_rosterSide h l _)

/-- Each ring is visited once, and only its own visit changes it. -/
theorem helloAtRings_ring (h : Station) (q : RingIdx) : ∀ {l : List RingIdx}, l.Nodup → ∀ (s : State),
    (l.foldl (State.helloAtRing h) s).ring q = if q ∈ l then (s.ring q).withoutStation h else s.ring q
  | [], _, _ => rfl
  | r :: l, hnodup, s => by
    obtain ⟨hr, hl⟩ := List.nodup_cons.1 hnodup
    rw [List.foldl_cons, helloAtRings_ring h q hl]
    by_cases hq : q = r
    · subst hq
      rw [if_neg hr, if_pos List.mem_cons_self, helloAtRing_ring]
    · simp [hq, helloAtRing_ring_ne h s hq]

theorem removed_roster (g : Ring) (h : Station) : (g.removed h).roster = g.roster.filter fun m => m.station != h := by
  unfold Ring.removed
  split
  · rename_i hclosing
    have hempty : (g.dropMember h).roster = [] := by simpa using (Bool.and_eq_true_iff.1 hclosing).2
    exact hempty.symm
  · rfl

theorem withoutStation_roster (g : Ring) (h : Station) :
    (g.withoutStation h).roster = g.roster.filter fun m => m.station != h := by
  unfold Ring.withoutStation
  split
  · exact removed_roster g h
  · rename_i hnone
    rw [Bool.not_eq_true, Option.isSome_eq_false_iff, Option.isNone_iff_eq_none, member_eq_none] at hnone
    exact (List.filter_eq_self.2 fun m hm => bne_iff_ne.2 (hnone m hm)).symm

theorem helloLeavesRosters : Part.HelloLeavesRosters := by
  intro a s haccepts
  have hring (r : RingIdx) := helloAtRings_ring a.header.source r (List.nodup_finRange 8) s
  simp only [List.mem_finRange, if_true] at hring
  have hside := helloAtRings_rosterSide a.header.source (List.finRange 8) s
  have hmem (r : RingIdx) (m : Member) : m ∈ (((List.finRange 8).foldl (State.helloAtRing a.header.source) s).ring r).roster ↔
      m ∈ (s.ring r).roster ∧ m.station ≠ a.header.source := by
    rw [hring, withoutStation_roster, List.mem_filter, bne_iff_ne]
  refine ⟨_, if_pos haccepts, fun r m hm => ((hmem r m).1 hm).symm, fun r m hm hne => (hmem r m).2 ⟨hm, hne⟩, fun r hnone => ?_,
    hside.subs, hside.dpc, hside.rqt, hside.pdu, hside.liu, hside.memory⟩
  rw [hring, Ring.withoutStation, member_eq_none.2 hnone]
  rfl

end Sys2Proof.Machine
end

section
/-! PROOFS. The serve engine (chapter 7): the reply that a serve places, and what it changes of the ring record. -/
namespace Sys2Proof.Machine

/-! ### The serve of the oldest entry (R145) -/

/-- The state in which an entry is judged: it has left the Serve Queue. -/
def State.dequeued (s : State) (rest : List ServeEntry) : State := { s with pub := { s.pub with serveQueue := rest } }

theorem nextServe_of_serves {s : State} {e : ServeEntry} {rest : List ServeEntry} (h : s.serves e rest) :
    s.nextServe = some e := by
  obtain ⟨hqueue, hroom⟩ := h
  unfold State.nextServe
  rw [hqueue]
  exact if_pos hroom

theorem serve_of_serves {s : State} {e : ServeEntry} {rest : List ServeEntry} (h : s.serves e rest) :
    s.serve e = ((s.dequeued rest).compareRoster e.ring e.source e.incarnation).1.judge e
      ((s.dequeued rest).compareRoster e.ring e.source e.incarnation).2 := by
  unfold State.serve
  rw [h.1]
  rfl

theorem serve_of_stranger {s : State} {e : ServeEntry} {rest : List ServeEntry} (h : s.serves e rest) (hnew : s.strangerTo e) :
    s.serve e = (s.dequeued rest).judge e false := by
  rw [serve_of_serves h, compareRoster_of_stranger (s := s.dequeued rest) _ (member_eq_none.2 hnew)]

theorem memberOf_member {s : State} {e : ServeEntry} {m : Member} (h : s.memberOf e m) :
    (s.ring e.ring).member e.source = some m := by
  obtain ⟨hordered, hm, hstation, -⟩ := h
  rw [← hstation]
  exact member_of_mem hordered hm

theorem serve_of_member {s : State} {e : ServeEntry} {rest : List ServeEntry} {m : Member} (h : s.serves e rest)
    (hm : s.memberOf e m) : s.serve e = (s.dequeued rest).judge e true := by
  obtain ⟨-, -, -, hinc⟩ := id hm
  rw [serve_of_serves h, compareRoster_of_member (s := s.dequeued rest) (memberOf_member hm) hinc]

theorem execServeJoin_of_serves {s : State} {e : ServeEntry} {rest : List ServeEntry} {newest : Bool} (h : s.serves e rest)
    (hbody : e.body = .join newest) : exec .serveJoin s = .next (s.serve e) := by
  change execServeJoin s = _
  unfold execServeJoin
  rw [nextServe_of_serves h]
  simp only [hbody]

theorem execServeFetch_of_serves {s : State} {e : ServeEntry} {rest : List ServeEntry} {q : Seq} {n : Nat} (h : s.serves e rest)
    (hbody : e.body = .fetch q n) : exec .serveFetch s = .next (s.serve e) := by
  change execServeFetch s = _
  unfold execServeFetch
  rw [nextServe_of_serves h]
  simp only [hbody]

theorem execServePull_of_serves {s : State} {e : ServeEntry} {rest : List ServeEntry} {q : Seq} {c n : Nat}
    (h : s.serves e rest) (hbody : e.body = .pull q c n) : exec .servePull s = .next (s.serve e) := by
  change execServePull s = _
  unfold execServePull
  rw [nextServe_of_serves h]
  simp only [hbody]

/-- The frame of a refusal. -/
def State.refuseFrame (s : State) (e : ServeEntry) (why : Refused) : Frame :=
  headerFrame .refuse { s.replyHeader e with reason := why.code }

theorem dequeued_placeRefuse (s : State) (rest : List ServeEntry) (e : ServeEntry) (why : Refused) :
    (s.dequeued rest).placeRefuse e why =
      { s with pub := { s.pub with serveQueue := rest }, liu := { s.liu with replies := s.liu.replies ++ [s.refuseFrame e why] } } :=
  rfl

theorem replyFor_refuseFrame (s : State) (e : ServeEntry) (why : Refused) : s.replyFor e (s.refuseFrame e why) :=
  ⟨rfl, rfl, rfl, ringField_toNat _, rfl, rfl, rfl⟩

/-! ### JOIN (R127 to R130) -/

theorem judgeJoin_of_not_opened {s : State} {e : ServeEntry} (newest : Bool) (h : (s.ring e.ring).state ≠ .opened) :
    s.judgeJoin e newest false = s.placeRefuse e .closed := by
  cases hstate : (s.ring e.ring).state with
  | closed => exact if_pos hstate
  | opened => exact absurd hstate h
  | withdrawing =>
    exact (if_neg (by rw [hstate]; decide)).trans ((if_neg Bool.false_ne_true).trans (if_pos hstate))

theorem judgeJoin_of_opened {s : State} {e : ServeEntry} (newest : Bool) (h : (s.ring e.ring).state = .opened) :
    s.judgeJoin e newest false = if (s.ring e.ring).roster.length < 6 then s.enrol e newest else s.placeRefuse e .rosterFull :=
  (if_neg (by rw [h]; decide)).trans ((if_neg Bool.false_ne_true).trans (if_neg (by rw [h]; decide)))

theorem joinRefusedByServe : Part.JoinRefusedByServe := by
  intro e rest newest s hserves hbody hnew hcase
  have hserve := serve_of_stranger hserves hnew
  rw [show (s.dequeued rest).judge e false = (s.dequeued rest).judgeJoin e newest false by unfold State.judge; rw [hbody]] at hserve
  rw [execServeJoin_of_serves hserves hbody, hserve]
  by_cases hopen : (s.ring e.ring).state = .opened
  · have hfull : ¬ (s.ring e.ring).roster.length < 6 := Nat.not_lt.2 (hcase.resolve_left (not_not.2 hopen))
    rw [judgeJoin_of_opened (s := s.dequeued rest) newest hopen,
      if_neg (show ¬ ((s.dequeued rest).ring e.ring).roster.length < 6 from hfull), dequeued_placeRefuse]
    exact ⟨_, rfl, rfl, replyFor_refuseFrame s e .rosterFull, fun h => absurd hopen h, fun _ => rfl⟩
  · rw [judgeJoin_of_not_opened (s := s.dequeued rest) newest hopen, dequeued_placeRefuse]
    exact ⟨_, rfl, rfl, replyFor_refuseFrame s e .closed, fun _ => rfl, fun h => absurd h hopen⟩

theorem enrol_roster (g : Ring) (e : ServeEntry) (newest : Bool) (n : Nat) : (g.enrol e newest n).roster =
    insertMember { station := e.source, incarnation := e.incarnation, mark := if newest then g.tail else g.reclaim,
                   silence := some n } g.roster := rfl

theorem enrol_ring (s : State) (e : ServeEntry) (newest : Bool) :
    (s.enrol e newest).ring e.ring = (s.ring e.ring).enrol e newest s.config.silenceLimit :=
  (postRing_ring _ .memberJoined e.ring e.ring 0 (e.source.setWidth 32)).trans (ring_modRing_self _ _ _)

theorem enrol_ring_ne (s : State) {e : ServeEntry} {q : RingIdx} (newest : Bool) (hq : q ≠ e.ring) :
    (s.enrol e newest).ring q = s.ring q :=
  (postRing_ring _ .memberJoined e.ring q 0 (e.source.setWidth 32)).trans (ring_modRing_ne _ _ (Ne.symm hq))

/-- The WELCOME with a start sequence, as a frame. -/
def State.welcomeFrame (s : State) (e : ServeEntry) (start : Seq) : Frame :=
  { kind := .welcome, header := { s.replyHeader e with seq := start },
    tail := { (s.ring e.ring).tailBlock with slotCode := slotCountCode (s.ring e.ring).slotCount }, body := [] }

theorem placeWelcome_eq (s : State) (e : ServeEntry) (start : Seq) :
    s.placeWelcome e start = s.placeReply (s.welcomeFrame e start) := rfl

/-- What an admission changes outside the ring record: one notice, one reply. -/
theorem enrol_reply (s : State) (e : ServeEntry) (newest : Bool) (h : s.lpc.notices.length < 64) :
    ∃ f, (s.enrol e newest).liu.replies = s.liu.replies ++ [f] ∧ f.kind = .welcome ∧ s.replyFor e f ∧
      f.header.seq = (if newest then (s.ring e.ring).tail else (s.ring e.ring).reclaim) ∧
      f.tail.tail = (s.ring e.ring).tail ∧ f.tail.revision = (s.ring e.ring).revision ∧
      f.tail.state = (s.ring e.ring).state.code := by
  have hpost := post_of_room (s := s.modRing e.ring fun g => g.enrol e newest s.config.silenceLimit)
    { kind := .memberJoined, index := noticeIndex e.ring, reason := 0, value := e.source.setWidth 32 } h
  have hring := ring_modRing_self s e.ring fun g => g.enrol e newest s.config.silenceLimit
  unfold State.enrol State.postRing
  dsimp only
  rw [hpost, placeWelcome_eq]
  exact ⟨_, rfl, rfl, ⟨rfl, rfl, rfl, ringField_toNat _, (congrArg Ring.epoch hring).trans rfl, rfl, rfl⟩, rfl,
    (congrArg Ring.tail hring).trans rfl, (congrArg Ring.revision hring).trans rfl,
    (congrArg (fun g => g.state.code) hring).trans rfl⟩

theorem joinAdmitsMember : Part.JoinAdmitsMember := by
  intro e rest newest s hserves hbody hnew hopen hroom hnotices mark
  have hserve := serve_of_stranger hserves hnew
  rw [show (s.dequeued rest).judge e false = (s.dequeued rest).judgeJoin e newest false by unfold State.judge; rw [hbody],
    judgeJoin_of_opened (s := s.dequeued rest) newest hopen,
    if_pos (show ((s.dequeued rest).ring e.ring).roster.length < 6 from hroom)] at hserve
  obtain ⟨f, hreplies, hkind, hreply, hseq, htail, hrevision, hstate⟩ := enrol_reply (s.dequeued rest) e newest hnotices
  have hring := enrol_ring (s.dequeued rest) e newest
  refine ⟨_, f, (execServeJoin_of_serves hserves hbody).trans (congrArg _ hserve), ?_, ?_, fun m hm => ?_, ?_, ?_, hreplies, hkind,
    hreply, hseq, htail, hrevision, hstate.trans (congrArg RingState.code hopen), fun q hq => enrol_ring_ne _ newest hq, ?_,
    ?_, ?_⟩
  · rw [hring, enrol_roster]
    exact mem_insertMember.2 (.inl rfl)
  · rw [hring, enrol_roster, length_insertMember]
    rfl
  · rw [hring, enrol_roster]
    exact mem_insertMember.2 (.inr hm)
  · rw [hring]
    rfl
  · exact postRing_notices (s := (s.dequeued rest).modRing e.ring _) .memberJoined e.ring 0 _ hnotices
  · exact congrArg Pub.serveQueue (post_pub _ _)
  · exact post_subs _ _
  · exact post_memory _ _

theorem rejoinKeepsMark : Part.RejoinKeepsMark := by
  intro e rest newest m s hserves hbody hm hopen
  have hserve := serve_of_member hserves hm
  rw [show (s.dequeued rest).judge e true = (s.dequeued rest).judgeJoin e newest true by unfold State.judge; rw [hbody],
    show (s.dequeued rest).judgeJoin e newest true = (s.dequeued rest).rejoin e from (if_neg hopen).trans (if_pos rfl)] at hserve
  rw [execServeJoin_of_serves hserves hbody, hserve]
  have hring := restartSilence_ring (s.dequeued rest) e.ring e.source
  refine ⟨((s.dequeued rest).restartSilence e.ring e.source).welcomeFrame e m.mark, ?_, rfl,
    ⟨rfl, rfl, rfl, ringField_toNat _, ?_, rfl, rfl⟩, rfl, ?_, ?_⟩
  · unfold State.rejoin
    rw [show ((s.dequeued rest).ring e.ring).member e.source = some m from memberOf_member hm]
    rfl
  · exact (congrArg Ring.epoch hring).trans rfl
  · exact (congrArg Ring.tail hring).trans rfl
  · exact (congrArg (fun g => g.state.code) hring).trans rfl

/-- Settles O44. -/
theorem joinServed : Obligations.JoinServed := ⟨joinRefusedByServe, joinAdmitsMember, rejoinKeepsMark⟩

/-! ### The gate of FETCH and PULL (R146) -/

theorem gateRefusal_of_open {s : State} {e : ServeEntry} (hopen : (s.ring e.ring).state ≠ .closed)
    (hepoch : e.epoch = (s.ring e.ring).epoch) : s.gateRefusal e true = none :=
  (if_neg hopen).trans ((if_neg (not_not.2 hepoch)).trans (if_neg (by decide)))

/-- The refusal of the gate, where there is one. -/
def State.gateCode (s : State) (e : ServeEntry) : Refused :=
  if (s.ring e.ring).state = .closed then .closed else if e.epoch ≠ (s.ring e.ring).epoch then .staleEpoch else .notMember

theorem gateRefusal_of_refused {s : State} {e : ServeEntry} {member : Bool}
    (h : member = false ∨ (s.ring e.ring).state = .closed ∨ e.epoch ≠ (s.ring e.ring).epoch) :
    s.gateRefusal e member = some (s.gateCode e) := by
  unfold State.gateRefusal State.gateCode
  split
  · rfl
  · rename_i hopen
    split
    · rfl
    · rename_i hepoch
      obtain rfl := h.resolve_right (not_or.2 ⟨hopen, hepoch⟩)
      rfl

theorem gateCode_code (s : State) (e : ServeEntry) : (s.gateCode e).code =
    if (s.ring e.ring).state = .closed then 1 else if e.epoch ≠ (s.ring e.ring).epoch then 4 else 3 := by
  unfold State.gateCode
  split
  · rfl
  · split <;> rfl

/-- A FETCH or PULL that the gate refuses. -/
theorem judge_of_refused {s : State} {e : ServeEntry} {member : Bool} {why : Refused} (h : s.gateRefusal e member = some why)
    (hbody : (∃ q n, e.body = .fetch q n) ∨ ∃ q k n, e.body = .pull q k n) : s.judge e member = s.placeRefuse e why := by
  unfold State.judge
  rcases hbody with ⟨q, n, hbody⟩ | ⟨q, k, n, hbody⟩ <;> simp only [hbody, h]

/-- Settles O45. -/
theorem requestGate : Obligations.RequestGate := by
  intro c e rest s hserves hcase hc
  have hexec : exec c s = .next (s.serve e) := by
    rcases hc with ⟨rfl, q, n, hbody⟩ | ⟨rfl, q, k, n, hbody⟩
    · exact execServeFetch_of_serves hserves hbody
    · exact execServePull_of_serves hserves hbody
  have hbody := hc.imp And.right And.right
  have hserve : s.serve e = (s.dequeued rest).placeRefuse e (s.gateCode e) := by
    rcases hcase with hnew | ⟨⟨m, hm⟩, hrefused⟩
    · rw [serve_of_stranger hserves hnew]
      exact judge_of_refused (gateRefusal_of_refused (s := s.dequeued rest) (.inl rfl)) hbody
    · rw [serve_of_member hserves hm]
      exact judge_of_refused (gateRefusal_of_refused (s := s.dequeued rest) (.inr hrefused)) hbody
  rw [hexec, hserve, dequeued_placeRefuse]
  exact ⟨_, rfl, rfl, replyFor_refuseFrame s e _, gateCode_code s e⟩

/-! ### The images of a LISTING (R148) -/

theorem half_halfBytes (h : Half) : half (h.extractLsb' 0 8) (h.extractLsb' 8 8) = h := by
  unfold half
  rw [BitVec.extractLsb'_append_extractLsb'_eq_extractLsb' (by rfl)]
  exact BitVec.extractLsb'_eq_self

theorem flagsByte_bits (fence last : Bool) :
    (flagsByte fence last).getLsbD 0 = fence ∧ (flagsByte fence last).getLsbD 1 = last := by
  cases fence <;> cases last <;> decide

/-- An image at the head of a body is read back. -/
theorem bodyImages_bytes_append (im : Image) (rest : List Byte) : bodyImages (im.bytes ++ rest) = im :: bodyImages rest := by
  obtain ⟨hfence, hlast⟩ := flagsByte_bits im.fence im.last
  simp only [bodyImages, Image.bytes, wordBytes, halfBytes, List.cons_append, List.nil_append, parseImages, List.map_cons,
    word_wordBytes, half_halfBytes, hfence, hlast]

theorem bodyImages_flatMap (f : Nat → Image) : ∀ (l : List Nat), bodyImages (l.flatMap fun k => (f k).bytes) = l.map f
  | [] => rfl
  | k :: l => by
    rw [List.flatMap_cons, bodyImages_bytes_append, bodyImages_flatMap f l]
    rfl

theorem length_flatMap_bytes (f : Nat → Image) : ∀ (l : List Nat), (l.flatMap fun k => (f k).bytes).length = 16 * l.length
  | [] => rfl
  | k :: l => by
    rw [List.flatMap_cons, List.length_append, length_flatMap_bytes f l, List.length_cons]
    change 16 + _ = _
    omega

/-! ### FETCH (R147 to R149) -/

theorem judgeFetch_of_member {s : State} {e : ServeEntry} {rest : List ServeEntry} {q : Seq} {n : Nat} {m : Member}
    (hserves : s.serves e rest) (hbody : e.body = .fetch q n) (hm : s.memberOf e m) (hopen : (s.ring e.ring).state ≠ .closed)
    (hepoch : e.epoch = (s.ring e.ring).epoch) : exec .serveFetch s = .next ((s.dequeued rest).judgeFetch e q n) := by
  rw [execServeFetch_of_serves hserves hbody, serve_of_member hserves hm]
  unfold State.judge
  simp only [hbody, gateRefusal_of_open (s := s.dequeued rest) hopen hepoch]

theorem restartSilence_ring_ne (s : State) {r q : RingIdx} (h : Station) (hq : q ≠ r) :
    (s.restartSilence r h).ring q = s.ring q := ring_modRing_ne _ _ (Ne.symm hq)

/-- The ring record after a LISTING: the commit point raised past what is served, the timer of the member restarted. -/
theorem listing_ring (s : State) (e : ServeEntry) (q : Seq) (served : Nat) : (s.listing e q served).ring e.ring =
    (if served = 0 then s.ring e.ring else (s.ring e.ring).raiseCommit (q + BitVec.ofNat 32 served)).modMember e.source
      fun m => { m with silence := some s.config.silenceLimit } := by
  unfold State.listing
  dsimp only
  split
  · exact restartSilence_ring _ _ _
  · refine (restartSilence_ring _ _ _).trans ?_
    rw [ring_modRing_self]
    rfl

theorem listing_ring_ne (s : State) {e : ServeEntry} {r : RingIdx} (q : Seq) (served : Nat) (hr : r ≠ e.ring) :
    (s.listing e q served).ring r = s.ring r := by
  unfold State.listing
  dsimp only
  split
  · exact restartSilence_ring_ne _ _ hr
  · exact (restartSilence_ring_ne _ _ hr).trans (ring_modRing_ne _ _ (Ne.symm hr))

/-- The LISTING as a frame. -/
def State.listingFrame (s : State) (e : ServeEntry) (q : Seq) (served : Nat) : Frame :=
  { kind := .listing, header := { s.replyHeader e with seq := q, count := BitVec.ofNat 5 served },
    tail := (s.ring e.ring).tailBlock, body := s.listingBody (s.ring e.ring) q served }

theorem listing_rest (s : State) (e : ServeEntry) (q : Seq) (served : Nat) :
    (s.listing e q served).liu.replies = s.liu.replies ++ [s.listingFrame e q served] ∧
    (s.listing e q served).pub.serveQueue = s.pub.serveQueue ∧ (s.listing e q served).lpc = s.lpc ∧
    (s.listing e q served).subs = s.subs ∧ (s.listing e q served).memory = s.memory := by
  unfold State.listing
  dsimp only
  split <;> exact ⟨rfl, rfl, rfl, rfl, rfl⟩

/-- The body of the LISTING holds the images of the slots served. -/
theorem listingFrame_images (s : State) (e : ServeEntry) (q : Seq) (served : Nat) :
    (s.listingFrame e q served).body.length = 16 * served ∧ bodyImages (s.listingFrame e q served).body =
      (List.range served).map fun k =>
        imageOfSlot (q + BitVec.ofNat 32 k) (s.slotAt (s.ring e.ring) (q + BitVec.ofNat 32 k)) :=
  ⟨(length_flatMap_bytes _ _).trans (by rw [List.length_range]), bodyImages_flatMap _ _⟩

/-- The served count of a FETCH that does not lie below the reclaim point. -/
def Ring.servedFrom (g : Ring) (q : Seq) (n : Nat) : Nat :=
  if (q - g.reclaim).toNat < (g.tail - g.reclaim).toNat then min n ((g.tail - g.reclaim).toNat - (q - g.reclaim).toNat) else 0

theorem servedFrom_le (g : Ring) (q : Seq) (n : Nat) : g.servedFrom q n ≤ n := by
  unfold Ring.servedFrom
  split
  · exact Nat.min_le_left _ _
  · exact Nat.zero_le _

theorem judgeFetch_of_below {s : State} {e : ServeEntry} {q : Seq} (n : Nat)
    (h : 2147483648 ≤ (q - (s.ring e.ring).reclaim).toNat) : s.judgeFetch e q n = s.placeRefuse e .reclaimed := by
  unfold State.judgeFetch
  rw [show (s.ring e.ring).servedCount q n = none from if_pos h]

theorem judgeFetch_of_not_below {s : State} {e : ServeEntry} {q : Seq} (n : Nat)
    (h : (q - (s.ring e.ring).reclaim).toNat < 2147483648) :
    s.judgeFetch e q n = s.listing e q ((s.ring e.ring).servedFrom q n) := by
  have hcount : (s.ring e.ring).servedCount q n = some ((s.ring e.ring).servedFrom q n) := by
    refine (if_neg (Nat.not_le.2 h)).trans ?_
    unfold Ring.servedFrom
    split <;> rfl
  unfold State.judgeFetch
  rw [hcount]

/-- The commit point after a LISTING. -/
theorem raised_commit (g : Ring) (q : Seq) (served : Nat) :
    (if served = 0 then g else g.raiseCommit (q + BitVec.ofNat 32 served)).commit =
      if 1 ≤ served ∧ seqBefore g.commit (q + BitVec.ofNat 32 served) = true then q + BitVec.ofNat 32 served else g.commit := by
  by_cases h : served = 0
  · rw [if_pos h, if_neg (fun hh => by omega)]
  · rw [if_neg h]
    simp only [Nat.one_le_iff_ne_zero.2 h, true_and]
    rfl

/-- Settles O46. -/
theorem fetchServed : Obligations.FetchServed := by
  intro e rest q n m s hserves hbody hn hm hopen hepoch g d p
  have hexec := judgeFetch_of_member hserves hbody hm hopen hepoch
  by_cases hd : 2147483648 ≤ d
  · rw [judgeFetch_of_below (s := s.dequeued rest) n hd, dequeued_placeRefuse] at hexec
    exact ⟨_, _, hexec, rfl, rfl, replyFor_refuseFrame s e .reclaimed, fun _ => ⟨rfl, rfl, rfl⟩,
      fun hlt => absurd hd (Nat.not_le.2 hlt), fun _ _ => rfl, rfl, rfl, rfl⟩
  · replace hexec : exec .serveFetch s = .next ((s.dequeued rest).listing e q (g.servedFrom q n)) :=
      hexec.trans (congrArg _ (judgeFetch_of_not_below (s := s.dequeued rest) n (Nat.lt_of_not_le hd)))
    obtain ⟨hreplies, hqueue, hlpc, hsubs, hmemory⟩ := listing_rest (s.dequeued rest) e q (g.servedFrom q n)
    obtain ⟨hlength, himages⟩ := listingFrame_images (s.dequeued rest) e q (g.servedFrom q n)
    obtain ⟨-, hmem, hstation, -⟩ := hm
    have hring := listing_ring (s.dequeued rest) e q (g.servedFrom q n)
    have hroster : (if g.servedFrom q n = 0 then g else g.raiseCommit (q + BitVec.ofNat 32 (g.servedFrom q n))).roster =
        g.roster := by split <;> rfl
    refine ⟨_, _, hexec, hreplies, hqueue, ⟨rfl, rfl, rfl, ringField_toNat _, rfl, rfl, rfl⟩, fun h => absurd h hd, fun _ => ?_,
      fun r hr => listing_ring_ne _ _ _ hr, hlpc, hsubs, hmemory⟩
    refine ⟨rfl, rfl, ?_, rfl, rfl, rfl, hlength, himages, ?_, ?_, ?_, ?_⟩
    · have hle := servedFrom_le g q n
      exact (BitVec.toNat_ofNat ..).trans (Nat.mod_eq_of_lt (by omega))
    · rw [hring]
      exact raised_commit g q (g.servedFrom q n)
    · rw [hring]
      split <;> rfl
    · rw [hring]
      split <;> rfl
    · rw [hring]
      exact modMember_mem (fun m => { m with silence := some s.config.silenceLimit }) (hroster ▸ hmem) hstation

/-! ### PULL (R150, R151) -/

theorem judgePull_of_member {s : State} {e : ServeEntry} {rest : List ServeEntry} {q : Seq} {c n : Nat} {m : Member}
    (hserves : s.serves e rest) (hbody : e.body = .pull q c n) (hm : s.memberOf e m) (hopen : (s.ring e.ring).state ≠ .closed)
    (hepoch : e.epoch = (s.ring e.ring).epoch) : exec .servePull s = .next ((s.dequeued rest).judgePull e q c n) := by
  rw [execServePull_of_serves hserves hbody, serve_of_member hserves hm]
  unfold State.judge
  simp only [hbody, gateRefusal_of_open (s := s.dequeued rest) hopen hepoch]

theorem pullOk_iff (s : State) (g : Ring) (q : Seq) (c : Nat) {n : Nat} (hn : 1 ≤ n) : s.pullOk g q c n = true ↔
    (q - g.reclaim).toNat < (g.commit - g.reclaim).toNat ∧ c * 256 + n ≤ (s.slotAt g q).length.toNat ∧
      (s.slotAt g q).offset.toNat + c * 256 + n ≤ 262144 := by
  have hn0 : n ≠ 0 := Nat.one_le_iff_ne_zero.1 hn
  simp only [State.pullOk, inRange, insideMemory, hn0, decide_false, Bool.false_or, Bool.and_eq_true, decide_eq_true_eq,
    and_assoc]
  exact Iff.rfl

/-- The PAYLOAD as a frame. -/
def State.payloadFrame (s : State) (e : ServeEntry) (q : Seq) (c n : Nat) : Frame :=
  { kind := .payload, header := { s.replyHeader e with seq := q, count := BitVec.ofNat 5 c, length := BitVec.ofNat 9 n },
    tail := zeroTail, body := s.bytesAt (addr ((s.slotAt (s.ring e.ring) q).offset.toNat + c * 256)) n }

theorem payload_eq (s : State) (e : ServeEntry) (q : Seq) (c n : Nat) :
    s.payload e q c n = (s.restartSilence e.ring e.source).placeReply (s.payloadFrame e q c n) := rfl

/-- Settles O47. -/
theorem pullServed : Obligations.PullServed := by
  intro e rest q c n m s hserves hbody hn hm hopen hepoch g d fine
  have hexec := judgePull_of_member hserves hbody hm hopen hepoch
  have hok : (s.dequeued rest).pullOk g q c n = true ↔ fine := pullOk_iff (s.dequeued rest) g q c hn
  by_cases hfine : fine
  · rw [show (s.dequeued rest).judgePull e q c n = _ from if_pos (hok.2 hfine), payload_eq] at hexec
    obtain ⟨-, hmem, hstation, -⟩ := hm
    have hring : (((s.dequeued rest).restartSilence e.ring e.source).placeReply ((s.dequeued rest).payloadFrame e q c n)).ring
        e.ring = _ := restartSilence_ring (s.dequeued rest) e.ring e.source
    refine ⟨_, _, hexec, rfl, rfl, ⟨rfl, rfl, rfl, ringField_toNat _, rfl, rfl, rfl⟩, fun h => absurd hfine h, fun _ => ?_,
      fun r hr => restartSilence_ring_ne (s.dequeued rest) _ hr, rfl, rfl, rfl⟩
    refine ⟨rfl, rfl, rfl, rfl, rfl, ?_, ?_, ?_⟩
    · rw [hring]
      rfl
    · rw [hring]
      rfl
    · rw [hring]
      exact modMember_mem (fun m => { m with silence := some s.config.silenceLimit }) hmem hstation
  · rw [show (s.dequeued rest).judgePull e q c n = _ from if_neg (mt hok.1 hfine), dequeued_placeRefuse] at hexec
    exact ⟨_, _, hexec, rfl, rfl, replyFor_refuseFrame s e .outOfRange, fun _ => ⟨rfl, rfl, rfl⟩, fun h => absurd h hfine,
      fun _ _ => rfl, rfl, rfl, rfl⟩

end Sys2Proof.Machine
end

section
/-! PROOFS. What a move of the engines does to one subscription record. -/
namespace Sys2Proof.Machine

/-! ### One record under a move -/

/-- What a move makes of the record of one subscription. -/
inductive SubMove : Kind → Sub → Sub → Prop
  | same (k : Kind) (b : Sub) : SubMove k b b
  | seek {b c : Sub} (h : SeekSub b c) : SubMove .seek b c
  | grant (b : Sub) (q : Request) (rest : List Request) (h : b.claims = q :: rest) :
      SubMove .seek b { b with claims := b.claims.drop 1 }
  | supply {b c : Sub} (hwait : b.blockWait ≠ none) (h : SupplySub b c) : SubMove .supply b c
  | complete (b : Sub) (hstate : b.state = .finishing) (hfinal : b.finalTail = some b.dp) :
      SubMove .complete b (({ b with claims := [] } : Sub).ended .closed 0)
  | deliver (b : Sub) (h : b.state = .active ∨ b.state = .finishing ∨ b.state = .leaving) :
      SubMove .deliver b b.delivered
  | depart (b : Sub) (hstate : b.state = .leaving) : SubMove .depart b (b.ended .left b.undeliveredCount)

theorem sub_modSub (s : State) (i j : SubIdx) (f : Sub → Sub) : (s.modSub i f).sub j = if i = j then f (s.sub j) else s.sub j := by
  by_cases h : i = j
  · subst h
    rw [if_pos rfl, sub_modSub_self]
  · rw [if_neg h, sub_modSub_ne s f h]

/-- A change of the record of `i` alone. -/
theorem SubMove.of_modSub {k : Kind} {s t : State} {i : SubIdx} {f : Sub → Sub} (hsubs : t.subs = (s.modSub i f).subs)
    (h : SubMove k (s.sub i) (f (s.sub i))) (j : SubIdx) : SubMove k (s.sub j) (t.sub j) := by
  rw [sub_congr hsubs, sub_modSub]
  split
  · rename_i e
    exact e ▸ h
  · exact .same k _

theorem subs_modSub_congr {s t : State} {i : SubIdx} {f : Sub → Sub} (h : s.subs = t.subs) :
    (s.modSub i f).subs = (t.modSub i f).subs := by
  unfold State.modSub State.sub
  rw [h]

theorem cancelRequests_subs (s : State) (i : SubIdx) :
    (s.cancelRequests i).subs = (s.modSub i fun b => { b with claims := [] }).subs := rfl

theorem completeFinishing_subs (s : State) (i : SubIdx) : (s.completeFinishing i).subs =
    (s.modSub i fun b => ({ b with claims := [] } : Sub).ended .closed 0).subs := by
  unfold State.completeFinishing State.postSub
  rw [post_subs]
  have hbefore : (((s.cancelRequests i).discardBlocks i fun _ => true).placeOneOff
      (((s.cancelRequests i).discardBlocks i fun _ => true).leaveFrameOf i)).subs =
      (s.modSub i fun b => { b with claims := [] }).subs := placeOneOff_subs _ _
  have hsubs := subs_modSub_congr (f := fun b => b.ended .closed 0) (i := i) hbefore
  exact hsubs.trans (congrArg State.subs (modSub_modSub s i _ _))

theorem completeLeave_subs (s : State) (i : SubIdx) : (s.completeLeave i).subs =
    (s.modSub i fun b => b.ended .left b.undeliveredCount).subs := by
  unfold State.completeLeave State.postSub
  rw [post_subs]
  exact subs_modSub_congr (i := i) (placeOneOff_subs (s.discardBlocks i fun _ => true) _)

theorem Move.record {k : Kind} {s t : State} (h : Move k s t) (j : SubIdx) : SubMove k (s.sub j) (t.sub j) := by
  cases h with
  | lines s v => exact .same _ _
  | linePtr s i => exact .same _ _
  | seek s i b h => exact .of_modSub (f := fun _ => b) rfl (.seek h) j
  | grant s t i q rest hroom hfree hclaims =>
    exact .of_modSub (f := fun b => { b with claims := b.claims.drop 1 }) rfl (.grant _ q rest hclaims) j
  | retry s t rest hline hroom => exact .same _ _
  | supply s i b hwait h => exact .of_modSub (f := fun _ => b) rfl (.supply hwait h) j
  | relines s v => exact .same _ _
  | pool s bs p h => exact .same _ _
  | draw s n => exact .same _ _
  | complete s i hstate hfinal => exact .of_modSub (completeFinishing_subs s i) (.complete _ hstate hfinal) j
  | deliver s i h =>
    refine .of_modSub (f := Sub.delivered) (i := i) ?_ (.deliver _ (deliverable_record (nextDelivery_eq_some h).2).1) j
    rw [writeRecord_eq]
    rfl
  | depart s i hstate hnone => exact .of_modSub (completeLeave_subs s i) (.depart _ hstate) j

/-- What every move of the sorts listed keeps of one record, a chain of them keeps. -/
theorem Moves.record {K : List Kind} {inv : Sub → Prop} (hmove : ∀ k ∈ K, ∀ b c, SubMove k b c → inv b → inv c) {s t : State}
    (h : Moves K s t) (i : SubIdx) (hs : inv (s.sub i)) : inv (t.sub i) :=
  h.keeps (inv := fun s => inv (s.sub i)) (fun k hk _ _ hm => hmove k hk _ _ (hm.record i)) hs

/-! ### What no move changes -/

/-- What the moves leave alone of a record. -/
structure SameTail (b c : Sub) : Prop where
  kt          : c.kt = b.kt
  rm          : c.rm = b.rm
  revision    : c.revision = b.revision
  generation  : c.generation = b.generation
  incarnation : c.incarnation = b.incarnation
  epoch       : c.epoch = b.epoch
  producer    : c.producer = b.producer
  ring        : c.ring = b.ring
  welcomed    : c.welcomed = b.welcomed
  finalTail   : c.finalTail = b.finalTail
  flushOwed   : c.flushOwed = b.flushOwed
  inFlushAll  : c.inFlushAll = b.inFlushAll
  depth       : c.depth = b.depth
  window      : c.window = b.window

theorem SameTail.refl (b : Sub) : SameTail b b := ⟨rfl, rfl, rfl, rfl, rfl, rfl, rfl, rfl, rfl, rfl, rfl, rfl, rfl, rfl⟩

theorem SameTail.trans {b c d : Sub} (h : SameTail b c) (k : SameTail c d) : SameTail b d :=
  ⟨k.kt.trans h.kt, k.rm.trans h.rm, k.revision.trans h.revision, k.generation.trans h.generation,
    k.incarnation.trans h.incarnation, k.epoch.trans h.epoch, k.producer.trans h.producer, k.ring.trans h.ring,
    k.welcomed.trans h.welcomed, k.finalTail.trans h.finalTail, k.flushOwed.trans h.flushOwed,
    k.inFlushAll.trans h.inFlushAll, k.depth.trans h.depth, k.window.trans h.window⟩

theorem SubMove.sameTail {k : Kind} {b c : Sub} (h : SubMove k b c) : SameTail b c := by
  cases h with
  | same => exact .refl b
  | seek h => cases h <;> constructor <;> rfl
  | supply _ h => cases h <;> constructor <;> rfl
  | _ => constructor <;> rfl

theorem Moves.sameTail {K : List Kind} {s t : State} (h : Moves K s t) (i : SubIdx) : SameTail (s.sub i) (t.sub i) :=
  h.record (inv := SameTail (s.sub i)) (fun _ _ _ _ hm hb => hb.trans hm.sameTail) i (.refl _)

/-- No move ends an ended subscription again. -/
theorem SubMove.ended {k : Kind} {b c : Sub} (h : SubMove k b c) (hb : b.state = .ended) :
    c.state = .ended ∧ c.reason = b.reason ∧ c.undelivered = b.undelivered ∧ c.dp = b.dp := by
  cases h with
  | same => exact ⟨hb, rfl, rfl, rfl⟩
  | seek h => cases h <;> exact ⟨hb, rfl, rfl, rfl⟩
  | grant => exact ⟨hb, rfl, rfl, rfl⟩
  | supply _ h => cases h <;> exact ⟨hb, rfl, rfl, rfl⟩
  | complete _ hstate => exact absurd (hb.symm.trans hstate) (by decide)
  | deliver _ hstate => rcases hstate with h | h | h <;> exact absurd (hb.symm.trans h) (by decide)
  | depart _ hstate => exact absurd (hb.symm.trans hstate) (by decide)

theorem Moves.ended {K : List Kind} {s t : State} (h : Moves K s t) {i : SubIdx} (hs : (s.sub i).state = .ended) :
    (t.sub i).state = .ended ∧ (t.sub i).reason = (s.sub i).reason ∧ (t.sub i).undelivered = (s.sub i).undelivered ∧
      (t.sub i).dp = (s.sub i).dp :=
  h.record (inv := fun b => b.state = .ended ∧ b.reason = (s.sub i).reason ∧ b.undelivered = (s.sub i).undelivered ∧
      b.dp = (s.sub i).dp) (fun _ _ _ _ hm hb => by
        obtain ⟨hstate, hreason, hcount, hdp⟩ := hb
        obtain ⟨hstate', hreason', hcount', hdp'⟩ := hm.ended hstate
        exact ⟨hstate', hreason'.trans hreason, hcount'.trans hcount, hdp'.trans hdp⟩) i ⟨hs, rfl, rfl, rfl⟩

/-- The states that no move leaves or enters but by a completion. -/
theorem SubMove.state {k : Kind} {b c : Sub} (h : SubMove k b c) : c.state = b.state ∨
    (k = .complete ∧ b.state = .finishing ∧ c.state = .ended ∧ c.reason = .closed) ∨
    (k = .depart ∧ b.state = .leaving ∧ c.state = .ended ∧ c.reason = .left) := by
  cases h with
  | same => exact .inl rfl
  | seek h => cases h <;> exact .inl rfl
  | grant => exact .inl rfl
  | supply _ h => cases h <;> exact .inl rfl
  | complete _ hstate => exact .inr (.inl ⟨rfl, hstate, rfl, rfl⟩)
  | deliver => exact .inl rfl
  | depart _ hstate => exact .inr (.inr ⟨rfl, hstate, rfl, rfl⟩)

/-- A state other than FINISHING and LEAVING stays through every move. -/
theorem Moves.state_of_steady {K : List Kind} {s t : State} (h : Moves K s t) {i : SubIdx} {x : SubState} (hs : (s.sub i).state = x)
    (hf : x ≠ .finishing) (hl : x ≠ .leaving) : (t.sub i).state = x :=
  h.record (inv := fun b => b.state = x) (fun _ _ b c hm hb => by
    rcases hm.state with e | ⟨-, e, -⟩ | ⟨-, e, -⟩
    · exact e.trans hb
    · exact absurd (hb.symm.trans e) hf
    · exact absurd (hb.symm.trans e) hl) i hs

/-- FINISHING stays, or is completed. -/
theorem Moves.state_of_finishing {K : List Kind} {s t : State} (h : Moves K s t) {i : SubIdx}
    (hs : (s.sub i).state = .finishing) :
    (t.sub i).state = .finishing ∨ (t.sub i).state = .ended ∧ (t.sub i).reason = .closed :=
  h.record (inv := fun b => b.state = .finishing ∨ b.state = .ended ∧ b.reason = .closed) (fun _ _ b c hm hb => by
    rcases hb with hb | ⟨hb, hreason⟩
    · rcases hm.state with e | ⟨-, -, e⟩ | ⟨-, e, -⟩
      · exact .inl (e.trans hb)
      · exact .inr e
      · exact absurd (hb.symm.trans e) (by decide)
    · obtain ⟨hstate, hsame, -⟩ := hm.ended hb
      exact .inr ⟨hstate, hsame.trans hreason⟩) i (.inl hs)

/-- LEAVING stays but for a departure. -/
theorem Moves.state_of_leaving {K : List Kind} (hK : Kind.depart ∉ K) {s t : State} (h : Moves K s t) {i : SubIdx}
    (hs : (s.sub i).state = .leaving) : (t.sub i).state = .leaving :=
  h.record (inv := fun b => b.state = .leaving) (fun k hk b c hm hb => by
    rcases hm.state with e | ⟨-, e, -⟩ | ⟨e, -⟩
    · exact e.trans hb
    · exact absurd (hb.symm.trans e) (by decide)
    · exact absurd (e ▸ hk) hK) i hs

/-! ### Notices -/

theorem post_notices_prefix (s : State) (n : Notice) : s.lpc.notices <+: (s.post n).lpc.notices := by
  unfold State.post
  split
  · exact List.prefix_append _ _
  · exact List.prefix_refl _

/-- The consumer's changes add notices behind those that are queued. -/
theorem Act.notices {s t : State} (h : Act false s t) : s.lpc.notices <+: t.lpc.notices := by
  cases h with
  | post n => exact post_notices_prefix s n
  | port l hown => exact absurd hown (by simp)
  | readNotice hown => exact absurd hown (by simp)
  | _ => exact List.prefix_refl _

theorem Acts.notices {s t : State} (h : Acts false s t) : s.lpc.notices <+: t.lpc.notices :=
  h.keeps (inv := fun t => s.lpc.notices <+: t.lpc.notices) (fun _ _ ha hs => hs.trans ha.notices) (List.prefix_refl _)

theorem Moves.notices {K : List Kind} {s t : State} (h : Moves K s t) : s.lpc.notices <+: t.lpc.notices := h.acts.notices

theorem Moves.consumer {K : List Kind} {s t : State} (h : Moves K s t) : ConsumerSide s t := h.acts.consumer

end Sys2Proof.Machine
end

section
/-! PROOFS. The forced end of a subscription (R38, R81), and the frames that lead to one: HELLO, ANNOUNCE and EVICT (R31 to R35,
R39, R55 to R57). -/
namespace Sys2Proof.Machine

/-! ### Changes of a subscription's flush marks -/

/-- `t` differs from `s` in the flush marks of subscription `i`, the notices, and the marks of the flush-all set. -/
structure FlushSide (i : SubIdx) (s t : State) : Prop where
  record : ∃ owed all pending, t.sub i = { s.sub i with flushOwed := owed, inFlushAll := all, flushPending := pending }
  others : ∀ j, j ≠ i → t.sub j = s.sub j
  lines  : t.dpc.lines = s.dpc.lines
  rqt    : t.rqt = s.rqt
  pdu    : t.pdu = s.pdu
  pub    : t.pub = s.pub
  liu    : t.liu = s.liu
  memory : t.memory = s.memory

theorem FlushSide.of_subs {i : SubIdx} {s t : State} (hsubs : t.subs = s.subs) (hlines : t.dpc.lines = s.dpc.lines)
    (hrqt : t.rqt = s.rqt) (hpdu : t.pdu = s.pdu) (hpub : t.pub = s.pub) (hliu : t.liu = s.liu)
    (hmemory : t.memory = s.memory) : FlushSide i s t :=
  ⟨⟨_, _, _, sub_congr hsubs i⟩, fun j _ => sub_congr hsubs j, hlines, hrqt, hpdu, hpub, hliu, hmemory⟩

theorem FlushSide.refl (i : SubIdx) (s : State) : FlushSide i s s := .of_subs rfl rfl rfl rfl rfl rfl rfl

theorem FlushSide.trans {i : SubIdx} {s t u : State} (h : FlushSide i s t) (k : FlushSide i t u) : FlushSide i s u := by
  obtain ⟨owed, all, pending, ht⟩ := h.record
  obtain ⟨owed', all', pending', hu⟩ := k.record
  exact ⟨⟨owed', all', pending', by rw [hu, ht]⟩, fun j hj => (k.others j hj).trans (h.others j hj), k.lines.trans h.lines,
    k.rqt.trans h.rqt, k.pdu.trans h.pdu, k.pub.trans h.pub, k.liu.trans h.liu, k.memory.trans h.memory⟩

theorem FlushSide.ite {i : SubIdx} {c : Prop} [Decidable c] {s t u : State} (ht : FlushSide i s t) (hu : FlushSide i s u) :
    FlushSide i s (if c then t else u) := by split <;> assumption

theorem post_flushSide (i : SubIdx) (s : State) (n : Notice) : FlushSide i s (s.post n) :=
  .of_subs (by simp) (by simp) (by simp) (by simp) (by simp) (by simp) (by simp)

theorem flushOwed_flushSide (i : SubIdx) (s : State) (x : Bool) :
    FlushSide i s (s.modSub i fun b => { b with flushOwed := x }) :=
  ⟨⟨x, _, _, sub_modSub_self _ _ _⟩, fun _ hj => sub_modSub_ne _ _ (Ne.symm hj), rfl, rfl, rfl, rfl, rfl, rfl⟩

theorem inFlushAll_flushSide (i : SubIdx) (s : State) (x : Bool) :
    FlushSide i s (s.modSub i fun b => { b with inFlushAll := x }) :=
  ⟨⟨_, x, _, sub_modSub_self _ _ _⟩, fun _ hj => sub_modSub_ne _ _ (Ne.symm hj), rfl, rfl, rfl, rfl, rfl, rfl⟩

theorem flushPending_flushSide (i : SubIdx) (s : State) (x : Bool) :
    FlushSide i s (s.modSub i fun b => { b with flushPending := x }) :=
  ⟨⟨_, _, x, sub_modSub_self _ _ _⟩, fun _ hj => sub_modSub_ne _ _ (Ne.symm hj), rfl, rfl, rfl, rfl, rfl, rfl⟩

theorem payFlushNotice_flushSide (s : State) (i : SubIdx) (b : Byte) : FlushSide i s (s.payFlushNotice i b) :=
  .ite ((flushOwed_flushSide i s false).trans (post_flushSide i _ _)) (.refl i s)

theorem postFlushAll_flushSide (i : SubIdx) (s : State) : FlushSide i s s.postFlushAll :=
  (post_flushSide i s _).trans (.of_subs rfl rfl rfl rfl rfl rfl rfl)

theorem leaveFlushAll_flushSide (s : State) (i : SubIdx) : FlushSide i s (s.leaveFlushAll i) :=
  .ite ((inFlushAll_flushSide i s false).trans (.ite (postFlushAll_flushSide i _) (.refl i _))) (.refl i s)

theorem flushTest_flushSide (s : State) (i : SubIdx) : FlushSide i s (s.flushTest i) :=
  .ite ((flushPending_flushSide i s false).trans ((payFlushNotice_flushSide _ i 0).trans (leaveFlushAll_flushSide _ i)))
    (.refl i s)

theorem settleFlush_flushSide (s : State) (i : SubIdx) (w : Bool) : FlushSide i s (s.settleFlush i w) :=
  .ite ((payFlushNotice_flushSide s i 1).trans (.ite (.trans (t := (s.payFlushNotice i 1).markFlushEnded)
    (.of_subs rfl rfl rfl rfl rfl rfl rfl) (leaveFlushAll_flushSide _ i)) (.refl i _))) (.refl i s)

/-! ### The forced end (R38) -/

/-- The state at a forced end, before its notice and the settling of a flush. -/
def State.ending (s : State) (i : SubIdx) (e : EndReason) : State :=
  (((s.cancelRequests i).discardBlocks i fun _ => true).releaseLines i).modSub i fun b =>
    b.ended e (s.sub i).undeliveredCount

theorem forcedEnd_flushSide (s : State) (i : SubIdx) (e : EndReason) : FlushSide i (s.ending i e) (s.forcedEnd i e) :=
  (post_flushSide i _ _).trans (settleFlush_flushSide _ _ _)

theorem ending_subs (s : State) (i : SubIdx) (e : EndReason) : (s.ending i e).subs =
    (s.modSub i fun b => ({ b with claims := [] } : Sub).ended e b.undeliveredCount).subs := by
  have hbefore : (((s.cancelRequests i).discardBlocks i fun _ => true).releaseLines i).subs =
      (s.modSub i fun b => { b with claims := [] }).subs := rfl
  exact (subs_modSub_congr (i := i) hbefore).trans (congrArg State.subs (modSub_modSub s i _ _))

/-- `c` is the record `b` ended with reason `e`: the undelivered count of R38, and DP, RM and KT as they were. -/
structure EndedAs (e : EndReason) (b c : Sub) : Prop where
  state       : c.state = .ended
  reason      : c.reason = e
  undelivered : c.undelivered = b.undeliveredCount
  dp          : c.dp = b.dp
  kt          : c.kt = b.kt
  rm          : c.rm = b.rm

theorem forcedEnd_sub (s : State) (i : SubIdx) (e : EndReason) : EndedAs e (s.sub i) ((s.forcedEnd i e).sub i) := by
  obtain ⟨owed, all, pending, hrecord⟩ := (forcedEnd_flushSide s i e).record
  rw [hrecord, sub_congr (ending_subs s i e), sub_modSub_self]
  exact ⟨rfl, rfl, rfl, rfl, rfl, rfl⟩

theorem forcedEnd_sub_ne (s : State) {i j : SubIdx} (e : EndReason) (h : j ≠ i) : (s.forcedEnd i e).sub j = s.sub j := by
  rw [(forcedEnd_flushSide s i e).others j h, sub_congr (ending_subs s i e), sub_modSub_ne _ _ (Ne.symm h)]

/-- No move touches the marks of an end. -/
theorem EndedAs.moves {K : List Kind} {s t : State} {i : SubIdx} {e : EndReason} {b : Sub} (h : EndedAs e b (s.sub i))
    (k : Moves K s t) : EndedAs e b (t.sub i) := by
  obtain ⟨hstate, hreason, hcount, hdp⟩ := k.ended h.state
  exact ⟨hstate, hreason.trans h.reason, hcount.trans h.undelivered, hdp.trans h.dp, (k.sameTail i).kt.trans h.kt,
    (k.sameTail i).rm.trans h.rm⟩

theorem endNow_sub (s : State) (i : SubIdx) (e : EndReason) : EndedAs e (s.sub i) ((s.endNow i e).sub i) :=
  (forcedEnd_sub s i e).moves (settle_moves _)

theorem forcedEnds_sub_of_not_mem (e : EndReason) (i : SubIdx) : ∀ {l : List SubIdx}, i ∉ l → ∀ (s : State),
    (l.foldl (fun s i => s.forcedEnd i e) s).sub i = s.sub i
  | [], _, _ => rfl
  | j :: l, hj, s => by
    obtain ⟨hne, hmem⟩ := not_or.1 (mt List.mem_cons.2 hj)
    rw [List.foldl_cons, forcedEnds_sub_of_not_mem e i hmem, forcedEnd_sub_ne s e hne]

/-- Forced ends of several subscriptions, one after the other. -/
theorem forcedEnds_sub (e : EndReason) (i : SubIdx) : ∀ {l : List SubIdx}, l.Nodup → i ∈ l → ∀ (s : State),
    EndedAs e (s.sub i) ((l.foldl (fun s i => s.forcedEnd i e) s).sub i)
  | j :: l, hnodup, hi, s => by
    obtain ⟨hj, hl⟩ := List.nodup_cons.1 hnodup
    rw [List.foldl_cons]
    rcases List.mem_cons.1 hi with rfl | hi
    · rw [forcedEnds_sub_of_not_mem e i hj]
      exact forcedEnd_sub s i e
    · have hne : i ≠ j := fun h => hj (h ▸ hi)
      have h := forcedEnds_sub e i hl hi (s.forcedEnd j e)
      rwa [forcedEnd_sub_ne s e hne] at h

theorem forcedEnds_acts (e : EndReason) (l : List SubIdx) (s : State) :
    Acts false s (l.foldl (fun s i => s.forcedEnd i e) s) := Acts.foldl (fun s i => forcedEnd_acts s i e) l s

/-! ### HELLO (R34) -/

/-- A notice posted with room, and what the consumer's changes add behind it. -/
theorem notices_of_posted {s u t : State} {n : Notice} (h : Acts false u t) (hu : u.lpc.notices = s.lpc.notices ++ [n]) :
    ∃ later, t.lpc.notices = s.lpc.notices ++ n :: later := by
  obtain ⟨later, hlater⟩ := h.notices
  exact ⟨later, by rw [← hlater, hu, List.append_assoc]; rfl⟩

/-- PEER_RESTARTED for a station. -/
def peerRestarted (h : Station) : Notice := { kind := .peerRestarted, index := 0, reason := 0, value := h.setWidth 32 }

theorem mem_liveTo {s : State} {h : Station} {i : SubIdx} (hproducer : (s.sub i).producer = h)
    (hlive : (s.sub i).state = .joining ∨ (s.sub i).state = .active ∨ (s.sub i).state = .finishing ∨
      (s.sub i).state = .leaving) : i ∈ s.liveTo h := by
  refine List.mem_filter.2 ⟨List.mem_finRange i, ?_⟩
  rw [hproducer, beq_self_eq_true, Bool.and_true]
  rcases hlive with h | h | h | h <;> rw [h] <;> rfl

/-- The state after the notice and the forced ends of a HELLO. -/
def State.restartOf (s : State) (h : Station) : State :=
  (s.liveTo h).foldl (fun s i => s.forcedEnd i .restarted) (s.post (peerRestarted h))

theorem execHelloFrame_of_accepts {a : Arrival} {s : State} (haccepts : s.accepts .hello a = true) :
    exec (.helloFrame a) s = .next (settle (s.restartOf a.header.source)) := by
  change execHelloFrame a s = _
  unfold execHelloFrame
  rw [if_pos haccepts]
  rfl

theorem restartOf_sub {s : State} {h : Station} {i : SubIdx} (hmem : i ∈ s.liveTo h) :
    EndedAs .restarted (s.sub i) ((s.restartOf h).sub i) := by
  have hnodup : (s.liveTo h).Nodup := (List.nodup_finRange 24).filter _
  have hended := forcedEnds_sub .restarted i hnodup hmem (s.post (peerRestarted h))
  rwa [sub_congr (post_subs s _)] at hended

theorem helloEndsSubscriptions : Part.HelloEndsSubscriptions := by
  intro a s haccepts hroom
  have hacts : Acts false (s.post (peerRestarted a.header.source)) (settle (s.restartOf a.header.source)) :=
    (forcedEnds_acts .restarted _ _).trans (settle_moves _).acts
  obtain ⟨later, hlater⟩ := notices_of_posted hacts (congrArg (fun t => t.lpc.notices) (post_of_room _ hroom))
  refine ⟨_, later, execHelloFrame_of_accepts haccepts, hlater, fun i hproducer hlive => ?_,
    hacts.consumer.pub.trans (post_pub _ _)⟩
  have hended := (restartOf_sub (mem_liveTo hproducer hlive)).moves (settle_moves _)
  exact ⟨hended.state, hended.reason, hended.undelivered, hended.rm, hended.dp, hended.kt⟩

/-- Settles O33. -/
theorem helloOutcomes : Obligations.HelloOutcomes := ⟨helloEndsSubscriptions, helloLeavesRosters⟩

/-! ### The checks (R31 to R33) -/

theorem newer_of_near {e f : Half} (hlo : 1 ≤ (e - f).toNat) (hhi : (e - f).toNat < 32768) : newer e f = true := by
  unfold newer
  rw [if_neg (by omega)]
  rw [decide_eq_true hlo, decide_eq_true hhi]
  rfl

theorem newer_of_far {e f : Half} (h : 32768 < (e - f).toNat) : newer e f = false := by
  unfold newer
  rw [if_neg (by omega)]
  rw [decide_eq_false (show ¬ (e - f).toNat < 32768 by omega), Bool.and_false]

theorem ne_of_sub_toNat_pos {e f : Half} (h : 1 ≤ (e - f).toNat) : e ≠ f := by
  rintro rfl
  rw [BitVec.sub_self] at h
  exact absurd h (by decide)

theorem check_of_incarnation {b : Sub} {h : Header} (hne : h.incarnation ≠ b.incarnation) : b.check h = .ends .restarted :=
  if_pos hne

theorem check_of_newer {b : Sub} {h : Header} (hinc : h.incarnation = b.incarnation) (hlo : 1 ≤ (h.epoch - b.epoch).toNat)
    (hhi : (h.epoch - b.epoch).toNat < 32768) : b.check h = .ends .epoch :=
  (if_neg (not_not.2 hinc)).trans ((if_neg (ne_of_sub_toNat_pos hlo)).trans (if_pos (newer_of_near hlo hhi)))

theorem check_of_older {b : Sub} {h : Header} (hinc : h.incarnation = b.incarnation) (hfar : 32768 < (h.epoch - b.epoch).toNat) :
    b.check h = .older :=
  (if_neg (not_not.2 hinc)).trans ((if_neg (ne_of_sub_toNat_pos (by omega))).trans
    (if_neg (by rw [newer_of_far hfar]; decide)))

theorem check_of_same {b : Sub} {h : Header} (hinc : h.incarnation = b.incarnation) (hepoch : h.epoch = b.epoch) :
    b.check h = .pass := (if_neg (not_not.2 hinc)).trans (if_pos hepoch)

theorem examined_iff (b : Sub) : b.examined = true ↔
    b.state = .active ∨ b.state = .finishing ∨ b.state = .leaving ∧ b.welcomed = true := by
  simp [Sub.examined, Sub.consuming, or_assoc]

theorem findSub_of_follows {s : State} {i : SubIdx} {h : Header} (hf : s.follows i h) :
    s.findSub h.source (ringOfField h.ring) = some i := by
  obtain ⟨hstate, hproducer, hring, hunique⟩ := hf
  cases hfind : s.findSub h.source (ringOfField h.ring) with
  | none =>
    rcases findSub_eq_none.1 hfind i with h | h | h
    · exact absurd h hstate
    · exact absurd hproducer h
    · exact absurd ((ring_eq_ringOfField _ _).2 hring) h
  | some j =>
    obtain ⟨hj, hproducerj, hringj⟩ := findSub_eq_some hfind
    rw [hunique j hj hproducerj ((ring_eq_ringOfField _ _).1 hringj)]

/-- The outcome of an ANNOUNCE for a record that is examined. -/
theorem execAnnounceFrame_of_follows {a : Arrival} {i : SubIdx} {s : State} (haccepts : s.accepts .announce a = true)
    (hf : s.follows i a.header) (hexamined : (s.sub i).examined = true) : exec (.announceFrame a) s =
      match (s.sub i).check a.header with
      | .pass => .next (s.takeAnnounce i a.tail)
      | .ends e => .next (s.endNow i e)
      | .older => .next s := by
  change execAnnounceFrame a s = _
  unfold execAnnounceFrame
  rw [if_pos haccepts, findSub_of_follows hf]
  exact if_pos hexamined

/-- The outcome of an EVICT for a record that is examined. -/
theorem execEvictFrame_of_follows {a : Arrival} {i : SubIdx} {s : State} (haccepts : s.accepts .evict a = true)
    (hf : s.follows i a.header) (hexamined : (s.sub i).examined = true) : exec (.evictFrame a) s =
      match (s.sub i).check a.header with
      | .pass => .next (s.endNow i .evicted)
      | .ends e => .next (s.endNow i e)
      | .older => .next s := by
  change execEvictFrame a s = _
  unfold execEvictFrame
  rw [if_pos haccepts, findSub_of_follows hf]
  exact if_pos hexamined

theorem incarnationAndEpochChecks : Part.IncarnationAndEpochChecks := by
  intro c a i s hc hf hexamined ends
  have hex := (examined_iff _).2 hexamined
  have hends {e : EndReason} (h : (s.sub i).check a.header = .ends e) : ends e := by
    have hend := endNow_sub s i e
    refine ⟨s.endNow i e, ?_, hend.state, hend.reason, hend.dp, hend.kt⟩
    rcases hc with ⟨rfl, hac⟩ | ⟨rfl, hac⟩
    · rw [execAnnounceFrame_of_follows hac hf hex, h]
    · rw [execEvictFrame_of_follows hac hf hex, h]
  refine ⟨fun hne => hends (check_of_incarnation hne), fun hinc => ⟨fun hlo hhi => hends (check_of_newer hinc hlo hhi),
    fun hfar => ?_⟩⟩
  rcases hc with ⟨rfl, hac⟩ | ⟨rfl, hac⟩
  · rw [execAnnounceFrame_of_follows hac hf hex, check_of_older hinc hfar]
  · rw [execEvictFrame_of_follows hac hf hex, check_of_older hinc hfar]

theorem unexaminedFrameDiscarded : Part.UnexaminedFrameDiscarded := by
  intro c a i s hc hf hstate
  have hex : ¬ (s.sub i).examined = true := by
    rw [examined_iff]
    rcases hstate with h | h | ⟨h, hw⟩ <;> simp_all
  rcases hc with rfl | rfl
  · change execAnnounceFrame a s = _
    unfold execAnnounceFrame
    split
    · rw [findSub_of_follows hf]
      exact if_neg hex
    · rfl
  · change execEvictFrame a s = _
    unfold execEvictFrame
    split
    · rw [findSub_of_follows hf]
      exact if_neg hex
    · rfl

theorem evictEndsSubscription : Part.EvictEndsSubscription := by
  intro a i s haccepts hf hexamined hinc hepoch
  have hend := endNow_sub s i .evicted
  refine ⟨s.endNow i .evicted, ?_, hend.state, hend.reason, hend.undelivered, ?_⟩
  · rw [execEvictFrame_of_follows haccepts hf ((examined_iff _).2 hexamined), check_of_same hinc hepoch]
  · rw [(endNow_acts (own := false) s i .evicted).consumer.liu]

/-- Settles O35. -/
theorem subscriptionFrameChecks : Obligations.SubscriptionFrameChecks :=
  ⟨incarnationAndEpochChecks, unexaminedFrameDiscarded, evictEndsSubscription⟩

/-! ### What the fetch decision and the grants leave of a record -/

/-- What a move of the fetch decision leaves alone of a record: all but AP, FP, the FETCHes, the claims and line wait. -/
structure SeekSame (b c : Sub) : Prop where
  state     : c.state = b.state
  pp        : c.pp = b.pp
  dp        : c.dp = b.dp
  poll      : c.poll = b.poll
  keepalive : c.keepalive = b.keepalive
  pulls     : c.pulls = b.pulls
  pullsOut  : c.pullsOut = b.pullsOut
  issue     : c.issue = b.issue
  blockWait : c.blockWait = b.blockWait
  pullWait  : c.pullWait = b.pullWait
  flushPending : c.flushPending = b.flushPending

theorem SeekSame.refl (b : Sub) : SeekSame b b := ⟨rfl, rfl, rfl, rfl, rfl, rfl, rfl, rfl, rfl, rfl, rfl⟩

theorem SeekSame.trans {b c d : Sub} (h : SeekSame b c) (k : SeekSame c d) : SeekSame b d :=
  ⟨k.state.trans h.state, k.pp.trans h.pp, k.dp.trans h.dp, k.poll.trans h.poll, k.keepalive.trans h.keepalive,
    k.pulls.trans h.pulls, k.pullsOut.trans h.pullsOut, k.issue.trans h.issue, k.blockWait.trans h.blockWait,
    k.pullWait.trans h.pullWait, k.flushPending.trans h.flushPending⟩

theorem SubMove.seekSame {b c : Sub} (h : SubMove .seek b c) : SeekSame b c := by
  cases h with
  | same => exact .refl b
  | seek h => cases h <;> constructor <;> rfl
  | grant => constructor <;> rfl

theorem Moves.seekSame {s t : State} (h : Moves [.seek] s t) (i : SubIdx) : SeekSame (s.sub i) (t.sub i) :=
  h.record (inv := SeekSame (s.sub i)) (fun k hk _ _ hm hb => by
    obtain rfl := List.mem_singleton.1 hk
    exact hb.trans hm.seekSame) i (.refl _)

/-! ### Tail information (R55, R57) -/

theorem cutAt_sub_self (s : State) (i : SubIdx) (x : Seq) : (s.cutAt i x).sub i =
    if seqUpTo (s.sub i).pp x then { s.sub i with ap := seqMin (s.sub i).ap x, fp := seqMin (s.sub i).fp x } else s.sub i := by
  rw [sub_congr (cutAt_sub s i x)]
  split
  · rw [sub_modSub_self]
  · rfl

theorem seekSame_cutAt (s : State) (i : SubIdx) (x : Seq) : SeekSame (s.sub i) ((s.cutAt i x).sub i) :=
  (cutAt_moves s i x).seekSame i

theorem cutAt_kt (s : State) (i : SubIdx) (x : Seq) :
    ((s.cutAt i x).sub i).kt = (s.sub i).kt ∧ ((s.cutAt i x).sub i).revision = (s.sub i).revision :=
  ⟨((cutAt_moves s i x).sameTail i).kt, ((cutAt_moves s i x).sameTail i).revision⟩

theorem applyTail_of_same_revision {s : State} {i : SubIdx} {r : Half} (hstate : (s.sub i).state = .active)
    (hr : r = (s.sub i).revision) (t : Seq) : s.applyTail i t r = s.modSub i fun b => { b with kt := seqMax b.kt t } := by
  unfold State.applyTail
  exact (if_pos (.inl hstate)).trans (if_pos hr)

theorem applyTail_of_newer {s : State} {i : SubIdx} {r : Half} (hstate : (s.sub i).state = .active)
    (hr : r ≠ (s.sub i).revision) (hnewer : newer r (s.sub i).revision = true) (t : Seq) : s.applyTail i t r =
      if seqBefore t (s.sub i).ap then (s.modSub i fun b => { b with kt := t, revision := r }).cutAt i t
      else s.modSub i fun b => { b with kt := t, revision := r } := by
  unfold State.applyTail
  exact (if_pos (.inl hstate)).trans ((if_neg hr).trans (if_pos hnewer))

theorem applyTail_of_older {s : State} {i : SubIdx} {r : Half} (hstate : (s.sub i).state = .active)
    (hr : r ≠ (s.sub i).revision) (hnewer : newer r (s.sub i).revision = false) (t : Seq) : s.applyTail i t r = s := by
  unfold State.applyTail
  exact (if_pos (.inl hstate)).trans ((if_neg hr).trans (if_neg (by rw [hnewer]; decide)))

/-- Tail information moves KT, the revision, FP and AP, and nothing else of a record. -/
theorem applyTail_sub (s : State) (i : SubIdx) (t : Seq) (r : Half) :
    SeekSame (s.sub i) ((s.applyTail i t r).sub i) ∧ ((s.applyTail i t r).sub i).rm = (s.sub i).rm := by
  unfold State.applyTail
  dsimp only
  split
  · split
    · rw [sub_modSub_self]
      exact ⟨by constructor <;> rfl, rfl⟩
    · split
      · have hset : SeekSame (s.sub i) ((s.modSub i fun b => { b with kt := t, revision := r }).sub i) := by
          rw [sub_modSub_self]
          constructor <;> rfl
        have hrm : ((s.modSub i fun b => { b with kt := t, revision := r }).sub i).rm = (s.sub i).rm := by
          rw [sub_modSub_self]
        split
        · exact ⟨hset.trans (seekSame_cutAt _ i t), ((cutAt_moves _ i t).sameTail i).rm.trans hrm⟩
        · exact ⟨hset, hrm⟩
      · exact ⟨.refl _, rfl⟩
  · exact ⟨.refl _, rfl⟩

/-- KT and the revision after tail information for an ACTIVE subscription (R55). -/
structure TailTaken (t : Seq) (r : Half) (b c : Sub) : Prop where
  same  : r = b.revision → c.revision = b.revision ∧ c.kt = seqMax b.kt t
  newer : 1 ≤ (r - b.revision).toNat → (r - b.revision).toNat < 32768 → c.kt = t ∧ c.revision = r
  older : 32768 < (r - b.revision).toNat → c.kt = b.kt ∧ c.revision = b.revision

theorem applyTail_taken {s : State} {i : SubIdx} (hstate : (s.sub i).state = .active) (t : Seq) (r : Half) :
    TailTaken t r (s.sub i) ((s.applyTail i t r).sub i) where
  same hr := by
    rw [applyTail_of_same_revision hstate hr, sub_modSub_self]
    exact ⟨rfl, rfl⟩
  newer hlo hhi := by
    rw [applyTail_of_newer hstate (ne_of_sub_toNat_pos hlo) (newer_of_near hlo hhi)]
    split
    · obtain ⟨hkt, hrevision⟩ := cutAt_kt (s.modSub i fun b => { b with kt := t, revision := r }) i t
      rw [hkt, hrevision, sub_modSub_self]
      exact ⟨rfl, rfl⟩
    · rw [sub_modSub_self]
      exact ⟨rfl, rfl⟩
  older hfar := by
    rw [applyTail_of_older hstate (ne_of_sub_toNat_pos (by omega)) (newer_of_far hfar)]
    exact ⟨rfl, rfl⟩

/-! ### An ANNOUNCE that passes (R56, R57) -/

/-- Tail information that shows OPEN, for an ACTIVE subscription: the poll timer is restarted. -/
theorem takeTail_of_open {s : State} {i : SubIdx} {t : TailBlock} (hstate : (s.sub i).state = .active) (ht : t.state = 1) :
    s.takeTail i t = (s.applyTail i t.tail t.revision).restartPoll i := by
  have hactive : ((s.applyTail i t.tail t.revision).sub i).state = .active := (applyTail_sub s i _ _).1.state.trans hstate
  unfold State.takeTail
  exact (if_pos hactive).trans (if_neg (by rw [ht]; decide))

/-- Tail information that shows WITHDRAWING takes an ACTIVE subscription to FINISHING. -/
theorem takeTail_of_withdrawing {s : State} {i : SubIdx} {t : TailBlock} (hstate : (s.sub i).state = .active)
    (ht : t.state = 2) : s.takeTail i t =
      ((s.applyTail i t.tail t.revision).restartPoll i).enterFinishing i t.tail t.revision := by
  have hactive : ((s.applyTail i t.tail t.revision).sub i).state = .active := (applyTail_sub s i _ _).1.state.trans hstate
  unfold State.takeTail
  exact (if_pos hactive).trans (if_pos ht)

theorem restartPoll_sub (s : State) (i : SubIdx) :
    (s.restartPoll i).sub i = { s.sub i with poll := some s.config.pollInterval } := sub_modSub_self _ _ _

theorem finishingTest_of_not_finishing {s : State} {i : SubIdx} (h : (s.sub i).state ≠ .finishing) : s.finishingTest i = s := by
  unfold State.finishingTest
  rw [if_neg]
  simp [h]

/-- What follows the tail information of an ANNOUNCE, up to the completion test. -/
theorem afterTail_moves (s u : State) (i : SubIdx) :
    Moves [.seek] u ((lineWaitRound u).evaluateChanged i (s.sub i)) :=
  (lineWaitRound_moves u).trans (evaluateChanged_moves _ _ _)

theorem restartPoll_cacheSide (s : State) (i : SubIdx) : CacheSide s (s.restartPoll i) := modSub_cacheSide _ _ _

theorem announceMovesKnownTail : Part.AnnounceMovesKnownTail := by
  intro a i s haccepts hf hstate hinc hepoch ht
  have hexec := execAnnounceFrame_of_follows haccepts hf ((examined_iff _).2 (.inl hstate))
  rw [check_of_same hinc hepoch] at hexec
  have htaken := applyTail_taken hstate a.tail.tail a.tail.revision
  obtain ⟨hsame, hrm⟩ := applyTail_sub s i a.tail.tail a.tail.revision
  have hcache := (applyTail_cacheSide s i a.tail.tail a.tail.revision)
  have hsub : (s.takeTail i a.tail).sub i = { (s.applyTail i a.tail.tail a.tail.revision).sub i with
      poll := some s.config.pollInterval } := by
    rw [takeTail_of_open hstate ht, restartPoll_sub, hcache.consumer.config]
  have hmoves := afterTail_moves s (s.takeTail i a.tail) i
  have hseek := hmoves.seekSame i
  have htail := hmoves.sameTail i
  have hside : CacheSide s ((lineWaitRound (s.takeTail i a.tail)).evaluateChanged i (s.sub i)) := by
    refine CacheSide.trans ?_ ((lineWaitRound_cacheSide _).trans (evaluateChanged_cacheSide _ i (s.sub i)))
    rw [takeTail_of_open hstate ht]
    exact hcache.trans (restartPoll_cacheSide _ i)
  rw [hsub] at hseek htail
  have hactive := hseek.state.trans (hsame.state.trans hstate)
  have hdone : s.takeAnnounce i a.tail = (lineWaitRound (s.takeTail i a.tail)).evaluateChanged i (s.sub i) :=
    finishingTest_of_not_finishing (by rw [hactive]; decide)
  rw [hdone] at hexec
  refine ⟨_, hexec, hactive, hseek.poll, fun hr => ?_, fun hlo hhi => ?_, fun hfar => ?_, htail.rm.trans hrm,
    hseek.dp.trans hsame.dp, hseek.pp.trans hsame.pp, hside.pub, hside.pdu, hside.lpc, hside.memory⟩
  · obtain ⟨hrevision, hkt⟩ := htaken.same hr
    exact ⟨htail.revision.trans hrevision, htail.kt.trans hkt⟩
  · obtain ⟨hkt, hrevision⟩ := htaken.newer hlo hhi
    exact ⟨htail.kt.trans hkt, htail.revision.trans hrevision⟩
  · obtain ⟨hkt, hrevision⟩ := htaken.older hfar
    exact ⟨htail.kt.trans hkt, htail.revision.trans hrevision⟩

/-- The state at entry to FINISHING, before its cut and its notice. -/
def State.finishingWith (s : State) (i : SubIdx) (t : Seq) (r : Half) : State :=
  s.modSub i fun b => { b with state := .finishing, finalTail := some t, kt := t, poll := none,
                               revision := if r ≠ b.revision ∧ newer r b.revision then r else b.revision }

/-- The state at entry to FINISHING, before its notice. -/
def State.finishingCut (s : State) (i : SubIdx) (t : Seq) (r : Half) : State :=
  if seqBefore t (s.sub i).ap then (s.finishingWith i t r).cutAt i t else s.finishingWith i t r

theorem enterFinishing_eq (s : State) (i : SubIdx) (t : Seq) (r : Half) :
    s.enterFinishing i t r = (s.finishingCut i t r).postSub .subFinishing i 0 t := by
  have hap : ((s.finishingWith i t r).sub i).ap = (s.sub i).ap := by
    unfold State.finishingWith
    rw [sub_modSub_self]
  unfold State.finishingCut
  rw [← hap]
  rfl

theorem finishingCut_cacheSide (s : State) (i : SubIdx) (t : Seq) (r : Half) : CacheSide s (s.finishingCut i t r) :=
  .ite ((modSub_cacheSide _ _ _).trans (cutAt_cacheSide _ _ _)) (modSub_cacheSide _ _ _)

theorem finishingCut_moves (s : State) (i : SubIdx) (t : Seq) (r : Half) :
    Moves [.seek] (s.finishingWith i t r) (s.finishingCut i t r) := .ite (fun _ => cutAt_moves _ _ _) fun _ => .refl _ _

theorem enterFinishing_sub (s : State) (i : SubIdx) (t : Seq) (r : Half) :
    (s.enterFinishing i t r).sub i = (s.finishingCut i t r).sub i := by
  rw [enterFinishing_eq]
  exact sub_congr (post_subs _ _) i

/-- The record at entry to FINISHING (R39, R57). -/
theorem enterFinishing_record (s : State) (i : SubIdx) (t : Seq) (r : Half) :
    ((s.enterFinishing i t r).sub i).state = .finishing ∧ ((s.enterFinishing i t r).sub i).finalTail = some t ∧
    ((s.enterFinishing i t r).sub i).kt = t ∧ ((s.enterFinishing i t r).sub i).poll = none ∧
    ((s.enterFinishing i t r).sub i).pp = (s.sub i).pp ∧ ((s.enterFinishing i t r).sub i).dp = (s.sub i).dp := by
  have hseek := (finishingCut_moves s i t r).seekSame i
  have htail := (finishingCut_moves s i t r).sameTail i
  rw [enterFinishing_sub]
  unfold State.finishingWith at hseek htail
  rw [sub_modSub_self] at hseek htail
  exact ⟨hseek.state, htail.finalTail, htail.kt, hseek.poll, hseek.pp, hseek.dp⟩

theorem enterFinishing_lpc {s : State} (i : SubIdx) (t : Seq) (r : Half) (h : s.lpc.notices.length < 64) :
    (s.enterFinishing i t r).lpc = { s.lpc with notices := s.lpc.notices ++
      [{ kind := .subFinishing, index := BitVec.ofNat 8 i.val, reason := 0, value := t }] } := by
  have hlpc := (finishingCut_cacheSide s i t r).lpc
  rw [enterFinishing_eq, State.postSub, post_of_room _ (by rw [hlpc]; exact h), hlpc]
  rfl

/-- Once its poll timer is stopped, no move starts it. -/
theorem Moves.poll_none {K : List Kind} {s t : State} (h : Moves K s t) {i : SubIdx} (hs : (s.sub i).poll = none) :
    (t.sub i).poll = none :=
  h.record (inv := fun b => b.poll = none) (fun _ _ b c hm hb => by
    cases hm with
    | same => exact hb
    | seek h => cases h <;> exact hb
    | grant => exact hb
    | supply _ h => cases h <;> exact hb
    | complete => rfl
    | deliver => exact hb
    | depart => rfl) i hs

theorem takeAnnounce_moves (s : State) (i : SubIdx) (t : TailBlock) :
    Moves [.seek, .supply, .complete] (s.takeTail i t) (s.takeAnnounce i t) :=
  ((afterTail_moves s _ i).mono (by decide)).trans (finishingTest_moves _ i)

theorem announceEntersFinishing : Part.AnnounceEntersFinishing := by
  intro a i s haccepts hf hstate hinc hepoch ht hroom
  have hexec := execAnnounceFrame_of_follows haccepts hf ((examined_iff _).2 (.inl hstate))
  rw [check_of_same hinc hepoch] at hexec
  have hside := (applyTail_cacheSide s i a.tail.tail a.tail.revision).trans (restartPoll_cacheSide _ i)
  have hmoves := takeAnnounce_moves s i a.tail
  rw [takeTail_of_withdrawing hstate ht] at hmoves
  obtain ⟨hfinishing, hfinal, hkt, hpoll, -, -⟩ := enterFinishing_record
    ((s.applyTail i a.tail.tail a.tail.revision).restartPoll i) i a.tail.tail a.tail.revision
  have hlpc := enterFinishing_lpc i a.tail.tail a.tail.revision (s :=
    (s.applyTail i a.tail.tail a.tail.revision).restartPoll i) (by rw [hside.lpc]; omega)
  obtain ⟨later, hlater⟩ := notices_of_posted hmoves.acts (congrArg Lpc.notices hlpc)
  rw [hside.lpc] at hlater
  exact ⟨_, later, hexec, hmoves.state_of_finishing hfinishing, (hmoves.sameTail i).finalTail.trans hfinal,
    (hmoves.sameTail i).kt.trans hkt, hmoves.poll_none hpoll, hlater⟩

/-- Settles O34. -/
theorem announceOutcomes : Obligations.AnnounceOutcomes := ⟨announceMovesKnownTail, announceEntersFinishing⟩

end Sys2Proof.Machine
end

section
/-! PROOFS. The replies to requests (R118, R119), the WELCOME and the REFUSE (R29, R30, R36, R43). -/
namespace Sys2Proof.Machine

/-! ### The request that a reply answers (R118) -/

theorem matchReply_eq_some {s : State} {k : FrameKind} {h : Header} {b : Binding} :
    s.matchReply k h = some b ↔ s.answers k h (tagOfField h.tag) b := by
  unfold State.matchReply State.answers
  cases hbound : (s.tag (tagOfField h.tag)).bound with
  | none => simp
  | some c =>
    simp only [Bool.and_eq_true, Bool.or_eq_true, decide_eq_true_eq, beq_iff_eq, Option.ite_none_right_eq_some,
      Option.some.injEq, tagOfField, true_and]
    constructor
    · rintro ⟨⟨⟨⟨hsent, huse⟩, hsource⟩, hfits⟩, rfl⟩
      exact ⟨rfl, hsent, huse, hsource, hfits⟩
    · rintro ⟨rfl, hsent, huse, hsource, hfits⟩
      exact ⟨⟨⟨⟨hsent, huse⟩, hsource⟩, hfits⟩, rfl⟩

theorem tag_of_answers {s : State} {k : FrameKind} {h : Header} {g : TagIdx} {b : Binding} (ha : s.answers k h g b) :
    tagOfField h.tag = g := Fin.ext ha.1

theorem matchReply_of_answers {s : State} {k : FrameKind} {h : Header} {g : TagIdx} {b : Binding} (ha : s.answers k h g b) :
    s.matchReply k h = some b := by
  rw [matchReply_eq_some, tag_of_answers ha]
  exact ha

theorem matchReply_none {s : State} {k : FrameKind} {h : Header} (hno : ¬ ∃ g b, s.answers k h g b) :
    s.matchReply k h = none := by
  cases hmatch : s.matchReply k h with
  | none => rfl
  | some b => exact absurd ⟨_, b, matchReply_eq_some.1 hmatch⟩ hno

/-- Settles O39. -/
theorem unmatchedReplyDiscarded : Obligations.UnmatchedReplyDiscarded := by
  intro c k a s harrival hk hno
  have hnone := matchReply_none hno
  have hskip {f : Binding → Result} : (if s.accepts k a then (match s.matchReply k a.header with
      | none => (.next s : Result)
      | some b => f b) else .next s) = .next s := by
    rw [hnone]
    exact ite_self _
  cases c with
  | welcomeFrame a' =>
    obtain ⟨rfl, rfl⟩ := Prod.mk.inj (Option.some.inj harrival)
    exact hskip
  | refuseFrame a' =>
    obtain ⟨rfl, rfl⟩ := Prod.mk.inj (Option.some.inj harrival)
    exact hskip
  | listingFrame a' =>
    obtain ⟨rfl, rfl⟩ := Prod.mk.inj (Option.some.inj harrival)
    exact hskip
  | payloadFrame a' =>
    obtain ⟨rfl, rfl⟩ := Prod.mk.inj (Option.some.inj harrival)
    exact hskip
  | requestFrame kind a' => cases kind <;> obtain ⟨rfl, rfl⟩ := Prod.mk.inj (Option.some.inj harrival) <;> simp at hk
  | helloFrame a' | helloRosterRemoval a' | announceFrame a' | leaveFrame a' | releaseFrame a' | evictFrame a' =>
    obtain ⟨rfl, rfl⟩ := Prod.mk.inj (Option.some.inj harrival)
    simp at hk
  | _ => exact absurd harrival (by simp [Instr.arrival])

/-! ### The freed tag (R119) -/

theorem freeTag_tag_self (s : State) (g : TagIdx) : (s.freeTag g).tag g = { s.tag g with bound := none } :=
  tag_modTag_self s g fun t => { t with bound := none }

theorem freeTag_tag_ne (s : State) {g x : TagIdx} (h : x ≠ g) : (s.freeTag g).tag x = s.tag x :=
  tag_modTag_ne s (fun t => { t with bound := none }) (Ne.symm h)

theorem execWelcomeFrame_of_answers {a : Arrival} {g : TagIdx} {b : Binding} {s : State}
    (haccepts : s.accepts .welcome a = true) (ha : s.answers .welcome a.header g b) : exec (.welcomeFrame a) s =
      match (s.sub b.sub).state with
      | .joining => .next ((s.freeTag g).takeWelcome b.sub a.header a.tail)
      | .leaving => .next ((s.freeTag g).takeLateWelcome b.sub a.header)
      | _ => .next (runGrants (s.freeTag g)) := by
  change execWelcomeFrame a s = _
  unfold execWelcomeFrame
  rw [if_pos haccepts, matchReply_of_answers ha, tag_of_answers ha]
  rfl

/-! ### What the moves leave of DP, memory and the Delivery Queue -/

theorem completeFinishing_rqt (s : State) (i : SubIdx) : (s.completeFinishing i).rqt = (s.cancelRequests i).rqt := by
  unfold State.completeFinishing State.postSub
  rw [post_rqt]
  exact placeOneOff_rqt _ _

theorem completeFinishing_store (s : State) (i : SubIdx) :
    (s.completeFinishing i).memory = s.memory ∧ (s.completeFinishing i).pdu.fill = s.pdu.fill := by
  unfold State.completeFinishing State.postSub
  rw [post_memory, post_pdu]
  exact ⟨placeOneOff_memory _ _, (congrArg Pdu.fill (placeOneOff_pdu _ _)).trans rfl⟩

theorem completeLeave_rqt (s : State) (i : SubIdx) : (s.completeLeave i).rqt = s.rqt := by
  unfold State.completeLeave State.postSub
  rw [post_rqt]
  exact placeOneOff_rqt _ _

theorem completeLeave_store (s : State) (i : SubIdx) :
    (s.completeLeave i).memory = s.memory ∧ (s.completeLeave i).pdu.fill = s.pdu.fill := by
  unfold State.completeLeave State.postSub
  rw [post_memory, post_pdu]
  exact ⟨placeOneOff_memory _ _, (congrArg Pdu.fill (placeOneOff_pdu _ _)).trans rfl⟩

/-- Only a delivery writes memory and fills the Delivery Queue. -/
theorem Move.store {k : Kind} {s t : State} (h : Move k s t) (hk : k ≠ .deliver) :
    t.memory = s.memory ∧ t.pdu.fill = s.pdu.fill := by
  cases h with
  | complete s i => exact completeFinishing_store s i
  | deliver => exact absurd rfl hk
  | depart s i => exact completeLeave_store s i
  | _ => exact ⟨rfl, rfl⟩

theorem Moves.store {K : List Kind} (hK : Kind.deliver ∉ K) {s t : State} (h : Moves K s t) :
    t.memory = s.memory ∧ t.pdu.fill = s.pdu.fill :=
  h.keeps (inv := fun t => t.memory = s.memory ∧ t.pdu.fill = s.pdu.fill) (fun k hk _ _ hm hs => by
    obtain ⟨hmemory, hfill⟩ := hm.store (fun e => hK (e ▸ hk))
    exact ⟨hmemory.trans hs.1, hfill.trans hs.2⟩) ⟨rfl, rfl⟩

/-- Only a delivery moves DP. -/
theorem SubMove.dp {k : Kind} {b c : Sub} (h : SubMove k b c) (hk : k ≠ .deliver) : c.dp = b.dp := by
  cases h with
  | seek h => cases h <;> rfl
  | supply _ h => cases h <;> rfl
  | deliver => exact absurd rfl hk
  | _ => rfl

theorem Moves.dp {K : List Kind} (hK : Kind.deliver ∉ K) {s t : State} (h : Moves K s t) (i : SubIdx) :
    (t.sub i).dp = (s.sub i).dp :=
  h.record (inv := fun b => b.dp = (s.sub i).dp) (fun _ hk _ _ hm hb => (hm.dp fun e => hK (e ▸ hk)).trans hb) i rfl

/-- A cut at or above a sequence does not move it. -/
theorem seqMin_of_upTo {a x : Seq} (h : seqUpTo a x = true) : seqMin a x = a := by
  unfold seqMin
  rw [if_neg]
  rw [seqUpTo_iff] at h
  rw [seqBefore_iff]
  rintro ⟨hlo, hhi⟩
  bv_omega

/-- Where PP stands at FP, the fetch decision moves neither. -/
theorem SubMove.seek_start {b c : Sub} {x : Seq} (h : SubMove .seek b c) (hb : b.pp = x ∧ b.fp = x) : c.pp = x ∧ c.fp = x := by
  obtain ⟨hpp, hfp⟩ := hb
  cases h with
  | same => exact ⟨hpp, hfp⟩
  | seek h =>
    cases h with
    | lineWait w h => exact ⟨hpp, hfp⟩
    | cut y h =>
      refine ⟨hpp, ?_⟩
      change seqMin b.fp y = x
      rw [hfp, ← hpp, seqMin_of_upTo h]
    | ask y h => exact ⟨hpp, hfp⟩
    | claim q h => exact ⟨hpp, hfp⟩
  | grant => exact ⟨hpp, hfp⟩

theorem Moves.seek_start {s t : State} {x : Seq} (h : Moves [.seek] s t) {i : SubIdx}
    (hs : (s.sub i).pp = x ∧ (s.sub i).fp = x) : (t.sub i).pp = x ∧ (t.sub i).fp = x :=
  h.record (inv := fun b => b.pp = x ∧ b.fp = x) (fun k hk _ _ hm hb => by
    obtain rfl := List.mem_singleton.1 hk
    exact hm.seek_start hb) i hs

/-- An ended subscription without a block wait: no move touches its pointers. -/
theorem Moves.ended_start {K : List Kind} {s t : State} {x : Seq} (h : Moves K s t) {i : SubIdx}
    (hs : (s.sub i).state = .ended ∧ (s.sub i).blockWait = none ∧ (s.sub i).pp = x ∧ (s.sub i).fp = x) :
    (t.sub i).pp = x ∧ (t.sub i).fp = x := by
  have hkept := h.record (inv := fun b => b.state = .ended ∧ b.blockWait = none ∧ b.pp = x ∧ b.fp = x)
    (fun k _ b c hm hb => by
      obtain ⟨hstate, hwait, hstart⟩ := hb
      refine ⟨(hm.ended hstate).1, ?_⟩
      cases hm with
      | same => exact ⟨hwait, hstart⟩
      | seek h => exact ⟨(SubMove.seek h).seekSame.blockWait.trans hwait, (SubMove.seek h).seek_start hstart⟩
      | grant => exact ⟨hwait, hstart⟩
      | supply hne => exact absurd hwait hne
      | complete _ hf => exact absurd (hstate.symm.trans hf) (by decide)
      | deliver _ hl => rcases hl with e | e | e <;> exact absurd (hstate.symm.trans e) (by decide)
      | depart _ hl => exact absurd (hstate.symm.trans hl) (by decide)) i hs
  exact hkept.2.2

/-- The completion test keeps a start at which PP and FP stand with DP. -/
theorem finishingTest_start {s : State} {i : SubIdx} {x : Seq} (hs : (s.sub i).pp = x ∧ (s.sub i).fp = x)
    (hdp : (s.sub i).dp = x) : ((s.finishingTest i).sub i).pp = x ∧ ((s.finishingTest i).sub i).fp = x := by
  unfold State.finishingTest
  split
  · refine (handOn_moves _).ended_start ?_
    rw [sub_congr (completeFinishing_subs s i), sub_modSub_self]
    exact ⟨rfl, rfl, hdp, hdp⟩
  · exact hs

/-! ### WELCOME in JOINING (R29) -/

/-- The state after the record, the line and the notices of a WELCOME. -/
def State.welcomed (s : State) (i : SubIdx) (h : Header) (t : TailBlock) : State :=
  let u := ((s.modSub i fun b => b.welcome h t s.config).assignReserved i (groupOf h.seq)).postSub .subActive i 0 h.seq
  if t.state = 2 then u.postSub .subFinishing i 0 t.tail else u

theorem takeWelcome_eq (s : State) (i : SubIdx) (h : Header) (t : TailBlock) :
    s.takeWelcome i h t = ((runGrants (s.welcomed i h t)).evaluate [i]).finishingTest i := rfl

/-- Of `welcomed`, all but the notices. -/
theorem welcomed_fields (s : State) (i : SubIdx) (h : Header) (t : TailBlock) :
    (s.welcomed i h t).subs = (s.modSub i fun b => b.welcome h t s.config).subs ∧
    (s.welcomed i h t).dpc = ((s.modSub i fun b => b.welcome h t s.config).assignReserved i (groupOf h.seq)).dpc ∧
    (s.welcomed i h t).rqt = s.rqt ∧ (s.welcomed i h t).pub = s.pub ∧ (s.welcomed i h t).pdu = s.pdu ∧
    (s.welcomed i h t).memory = s.memory := by
  unfold State.welcomed State.postSub
  dsimp only
  split
  · exact ⟨(post_subs _ _).trans (post_subs _ _), (post_dpc _ _).trans (post_dpc _ _), (post_rqt _ _).trans (post_rqt _ _),
      (post_pub _ _).trans (post_pub _ _), (post_pdu _ _).trans (post_pdu _ _), (post_memory _ _).trans (post_memory _ _)⟩
  · exact ⟨post_subs _ _, post_dpc _ _, post_rqt _ _, post_pub _ _, post_pdu _ _, post_memory _ _⟩

theorem welcomed_lpc {s : State} (i : SubIdx) (h : Header) (t : TailBlock) (hroom : s.lpc.notices.length < 63) :
    (s.welcomed i h t).lpc = { s.lpc with notices := s.lpc.notices ++
      { kind := .subActive, index := BitVec.ofNat 8 i.val, reason := 0, value := h.seq } ::
      (if t.state = 2 then [{ kind := .subFinishing, index := BitVec.ofNat 8 i.val, reason := 0, value := t.tail }]
       else []) } := by
  have hpost := post_of_room (s := (s.modSub i fun b => b.welcome h t s.config).assignReserved i (groupOf h.seq))
    { kind := .subActive, index := noticeIndex i, reason := 0, value := h.seq } (Nat.lt_succ_of_lt hroom)
  unfold State.welcomed State.postSub
  dsimp only
  rw [hpost]
  split
  · rw [post_of_room]
    · simp only [List.append_assoc, List.cons_append, List.nil_append]
      rfl
    · rw [List.length_append, List.length_singleton]
      exact Nat.succ_lt_succ hroom
  · rfl

theorem welcomeInJoining : Part.WelcomeInJoining := by
  intro a g b s haccepts ha hstate
  have hexec : exec (.welcomeFrame a) s = .next (((runGrants ((s.freeTag g).welcomed b.sub a.header a.tail)).evaluate
      [b.sub]).finishingTest b.sub) := by
    rw [execWelcomeFrame_of_answers haccepts ha, hstate, ← takeWelcome_eq]
  obtain ⟨hsubs, hdpc, hrqt, hpub, hpdu, hmemory⟩ := welcomed_fields (s.freeTag g) b.sub a.header a.tail
  have hrecord : ((s.freeTag g).welcomed b.sub a.header a.tail).sub b.sub =
      (s.sub b.sub).welcome a.header a.tail s.config := by
    rw [sub_congr hsubs, sub_modSub_self]
    rfl
  have hseek : Moves [.seek] ((s.freeTag g).welcomed b.sub a.header a.tail)
      ((runGrants ((s.freeTag g).welcomed b.sub a.header a.tail)).evaluate [b.sub]) :=
    (runGrants_moves _).trans (evaluate_moves _ _)
  have hall := (hseek.mono (L := [.seek, .supply, .complete]) (by decide)).trans (finishingTest_moves _ b.sub)
  have htail := hall.sameTail b.sub
  have hdp := hall.dp (by decide) b.sub
  have hstart := hseek.seek_start (i := b.sub) (x := a.header.seq) (by rw [hrecord]; exact ⟨rfl, rfl⟩)
  have hseekdp := hseek.dp (by decide) b.sub
  rw [hrecord] at htail hdp hseekdp
  obtain ⟨hpp, hfp⟩ := finishingTest_start hstart hseekdp
  obtain ⟨hstore, hfill⟩ := hall.store (by decide)
  have hline (l : LineIdx) : ((s.freeTag g).welcomed b.sub a.header a.tail).dpc.lines.get l =
      if s.dpc.lines.get l = .reserved b.sub then .assigned b.sub (groupOf a.header.seq) emptyEntries
      else s.dpc.lines.get l := by
    rw [hdpc]
    exact mapTable_get _ _ _
  refine ⟨(s.freeTag g).welcomed b.sub a.header a.tail, _, hexec, rfl, ?_, fun l hl => ?_, fun l hl => ?_,
    fun hroom => welcomed_lpc (s := s.freeTag g) b.sub a.header a.tail hroom, htail.welcomed, htail.incarnation, htail.epoch,
    htail.revision, htail.rm, hdp, hpp, hfp, htail.kt, fun h1 => ?_, fun h2 => ⟨?_, ?_, ?_⟩, ?_, ?_, ?_⟩
  · rw [tag_congr hrqt, freeTag_tag_self]
  · exact (hline l).trans (if_pos hl)
  · exact (hline l).trans (if_neg hl)
  · have hactive : ((s.sub b.sub).welcome a.header a.tail s.config).state = .active ∧
        ((s.sub b.sub).welcome a.header a.tail s.config).poll = some s.config.pollInterval := by
      unfold Sub.welcome
      rw [h1]
      exact ⟨rfl, rfl⟩
    have hsame := hseek.seekSame b.sub
    rw [hrecord] at hsame
    rw [finishingTest_of_not_finishing (by rw [hsame.state, hactive.1]; decide)]
    exact ⟨hsame.state.trans hactive.1, hsame.poll.trans hactive.2, hsame.keepalive⟩
  · refine htail.finalTail.trans ?_
    unfold Sub.welcome
    rw [h2]
    rfl
  · refine hall.poll_none ?_
    rw [hrecord]
    unfold Sub.welcome
    rw [h2]
    rfl
  · refine hall.state_of_finishing ?_
    rw [hrecord]
    unfold Sub.welcome
    rw [h2]
    rfl
  · exact hall.consumer.pub.trans hpub
  · exact hfill.trans (congrArg Pdu.fill hpdu)
  · exact hstore.trans hmemory

/-! ### The end of a leave's requests (R43, R124) -/

theorem tag_cancelRequests {s : State} {i : SubIdx} {t : TagIdx} {b : Binding} (h : ((s.cancelRequests i).tag t).bound = some b) :
    (s.tag t).bound = some b := by
  have h' : ((mapTable (fun (g : Tag) => if g.boundTo i then { g with bound := none } else g) s.rqt.tags).get t).bound =
    some b := h
  rw [mapTable_get] at h'
  split at h'
  · exact absurd h' (by simp)
  · exact h'

theorem grantTo_tag_self (s : State) (t : TagIdx) (i : SubIdx) (q : Request) : (s.grantTo t i q).tag t =
    { useCount := (s.tag t).useCount + 1, bound := some { sub := i, request := q, attempts := 1, deadline := none } } :=
  tag_modTag_self (s.modSub i fun b => { b with claims := b.claims.drop 1 }) t fun g =>
    { useCount := g.useCount + 1, bound := some { sub := i, request := q, attempts := 1, deadline := none } }

theorem grantTo_tag_ne (s : State) {t x : TagIdx} (i : SubIdx) (q : Request) (h : t ≠ x) : (s.grantTo t i q).tag x = s.tag x :=
  tag_modTag_ne (s.modSub i fun b => { b with claims := b.claims.drop 1 }) (fun g =>
    { useCount := g.useCount + 1, bound := some { sub := i, request := q, attempts := 1, deadline := none } }) h

/-- No move but a departure gives a subscription in LEAVING a request. -/
theorem Move.nothingOutstanding {k : Kind} {s t : State} {i : SubIdx} (h : Move k s t) (hk : k ≠ .depart)
    (hstate : (s.sub i).state = .leaving) (hnone : s.nothingOutstanding i = true) : t.nothingOutstanding i = true := by
  have hrecord := h.record i
  rw [nothingOutstanding_iff] at hnone ⊢
  obtain ⟨hbound, hclaims⟩ := hnone
  have hclaims' : (t.sub i).claims = [] := by
    have hev : (s.sub i).evaluated = false := by simp [Sub.evaluated, hstate]
    generalize hb : s.sub i = b at *
    generalize t.sub i = c at *
    cases hrecord with
    | same => exact hclaims
    | seek h =>
      cases h with
      | lineWait w h => exact hclaims
      | cut y h => exact hclaims
      | ask y h => exact hclaims
      | claim q h => exact absurd (hev.symm.trans h) Bool.false_ne_true
    | grant b q rest h => exact absurd (hclaims.symm.trans h) (List.cons_ne_nil q rest).symm
    | supply hne h => cases h <;> exact hclaims
    | complete => rfl
    | deliver => exact hclaims
    | depart => exact absurd rfl hk
  refine ⟨fun x b hb => ?_, hclaims'⟩
  cases h with
  | grant s g j q rest hroom hfree hq =>
    by_cases hx : g = x
    · subst hx
      rw [grantTo_tag_self] at hb
      obtain rfl := Option.some.inj hb
      rintro rfl
      exact absurd (hclaims.symm.trans hq) (List.cons_ne_nil q rest).symm
    · rw [grantTo_tag_ne s j q hx] at hb
      exact hbound x b hb
  | complete s j =>
    rw [tag_congr (completeFinishing_rqt s j)] at hb
    exact hbound x b (tag_cancelRequests hb)
  | deliver s j h =>
    refine hbound x b ?_
    rw [writeRecord_eq] at hb
    exact hb
  | depart => exact absurd rfl hk
  | _ => exact hbound x b hb

/-- A subscription in LEAVING without a request, through what an event leads to but for its departure. -/
theorem settle_leaving {u : State} {i : SubIdx} (hstate : (u.sub i).state = .leaving) (hnone : u.nothingOutstanding i = true) :
    ((settle u).sub i).state = .leaving ∧ (settle u).nothingOutstanding i = true :=
  (settle_moves u).keeps (inv := fun t => (t.sub i).state = .leaving ∧ t.nothingOutstanding i = true)
    (fun k hk s t hm hs => by
      obtain ⟨hs, hn⟩ := hs
      have hdepart : k ≠ .depart := by rintro rfl; exact absurd hk (by decide)
      exact ⟨(hm.moves).state_of_leaving (by simpa using hdepart.symm) hs, hm.nothingOutstanding hdepart hs hn⟩)
    ⟨hstate, hnone⟩

/-- The leave of a subscription without a request completes as LEFT. -/
theorem leaveTest_left {u : State} {i : SubIdx} (hstate : (u.sub i).state = .leaving) (hnone : u.nothingOutstanding i = true) :
    ((u.leaveTest i).sub i).state = .ended ∧ ((u.leaveTest i).sub i).reason = .left := by
  have hsub : (u.completeLeave i).sub i = (u.sub i).ended .left (u.sub i).undeliveredCount := by
    rw [sub_congr (completeLeave_subs u i), sub_modSub_self]
  obtain ⟨hended, hreason, -⟩ := (settle_moves (u.completeLeave i)).ended (i := i) (by rw [hsub]; rfl)
  have htest : u.leaveTest i = settle (u.completeLeave i) := by
    unfold State.leaveTest
    rw [if_pos]
    rw [hstate, hnone]
    rfl
  rw [htest]
  exact ⟨hended, hreason.trans (by rw [hsub]; rfl)⟩

theorem nothingOutstanding_of_onlyRequest {s u : State} {i : SubIdx} {g : TagIdx} (h : s.onlyRequest i g)
    (hclaims : (u.sub i).claims = (s.sub i).claims) (hfree : (u.tag g).bound = none)
    (hothers : ∀ x, x ≠ g → u.tag x = s.tag x) : u.nothingOutstanding i = true := by
  obtain ⟨hnone, htags⟩ := h
  refine (nothingOutstanding_iff _ _).2 ⟨fun x b hb => ?_, hclaims.trans hnone⟩
  by_cases hx : x = g
  · rw [hx, hfree] at hb
    exact absurd hb (by simp)
  · exact htags x b hx (by rw [← hothers x hx, hb])

/-- What follows the end of the last request of a subscription in LEAVING. -/
theorem leave_completes {s u : State} {i : SubIdx} {g : TagIdx} (hstate : (u.sub i).state = .leaving) (h : s.onlyRequest i g)
    (hclaims : (u.sub i).claims = (s.sub i).claims) (hfree : (u.tag g).bound = none)
    (hothers : ∀ x, x ≠ g → u.tag x = s.tag x) :
    (((settle u).leaveTest i).sub i).state = .ended ∧ (((settle u).leaveTest i).sub i).reason = .left := by
  obtain ⟨hleaving, hnone⟩ := settle_leaving hstate (nothingOutstanding_of_onlyRequest h hclaims hfree hothers)
  exact leaveTest_left hleaving hnone

theorem welcomeInLeaving : Part.WelcomeInLeaving := by
  intro a g b s haccepts ha hstate
  have hexec := execWelcomeFrame_of_answers haccepts ha
  rw [hstate] at hexec
  have hsub : ((s.freeTag g).modSub b.sub fun x =>
        { x with welcomed := true, incarnation := a.header.incarnation, epoch := a.header.epoch }).sub b.sub =
      { s.sub b.sub with welcomed := true, incarnation := a.header.incarnation, epoch := a.header.epoch } :=
    sub_modSub_self _ _ _
  refine ⟨_, _, hexec, rfl, freeTag_tag_self s g, hsub, fun j hj => sub_modSub_ne _ _ (Ne.symm hj), rfl, rfl, rfl, rfl, rfl, rfl,
    fun honly => leave_completes (by rw [hsub]; exact hstate) honly (by rw [hsub]) (congrArg Tag.bound (freeTag_tag_self s g))
      fun x hx => freeTag_tag_ne s hx, ?_⟩
  exact ((settle_moves _).consumer.trans (leaveTest_moves _ _).consumer).pub

/-- Settles O40. -/
theorem welcomeStartsSubscription : Obligations.WelcomeStartsSubscription := ⟨welcomeInJoining, welcomeInLeaving⟩

/-! ### REFUSE (R30, R36, R43) -/

theorem execRefuseFrame_of_join {a : Arrival} {g : TagIdx} {b : Binding} {newest : Bool} {s : State}
    (haccepts : s.accepts .refuse a = true) (ha : s.answers .refuse a.header g b) (hb : b.request = .join newest) :
    exec (.refuseFrame a) s = .next ((s.freeTag g).takeJoinRefusal b.sub a.header) := by
  change execRefuseFrame a s = _
  unfold execRefuseFrame
  rw [if_pos haccepts, matchReply_of_answers ha, tag_of_answers ha]
  simp only [hb]

theorem refuseEndsJoining : Part.RefuseEndsJoining := by
  intro a g b newest s haccepts ha hb hstate
  have htaken : (s.freeTag g).takeJoinRefusal b.sub a.header = (s.freeTag g).endNow b.sub (joinRefusal a.header.reason) := by
    unfold State.takeJoinRefusal
    rw [show (s.freeTag g).sub b.sub = s.sub b.sub from rfl, hstate]
  have hended := endNow_sub (s.freeTag g) b.sub (joinRefusal a.header.reason)
  refine ⟨_, (execRefuseFrame_of_join haccepts ha hb).trans (congrArg _ htaken), hended.state, hended.reason, fun hw => ?_,
    (endNow_consumerSide (s.freeTag g) b.sub _).pub⟩
  refine hended.undelivered.trans ?_
  exact if_neg (by rw [show (s.freeTag g).sub b.sub = s.sub b.sub from rfl, hw]; decide)

theorem refuseInLeaving : Part.RefuseInLeaving := by
  intro a g b newest s haccepts ha hb hstate
  have htaken : (s.freeTag g).takeJoinRefusal b.sub a.header = (settle (s.freeTag g)).leaveTest b.sub := by
    unfold State.takeJoinRefusal
    rw [show (s.freeTag g).sub b.sub = s.sub b.sub from rfl, hstate]
  refine ⟨s.freeTag g, _, (execRefuseFrame_of_join haccepts ha hb).trans (congrArg _ htaken), rfl, freeTag_tag_self s g, rfl,
    rfl, rfl, rfl, rfl, rfl, rfl, fun honly => leave_completes hstate honly rfl (congrArg Tag.bound (freeTag_tag_self s g))
      fun x hx => freeTag_tag_ne s hx, ?_⟩
  exact ((settle_moves (s.freeTag g)).consumer.trans (leaveTest_moves _ _).consumer).pub

theorem replyEnd_of_incarnation {b : Sub} {h : Header} (hne : h.incarnation ≠ b.incarnation) : b.replyEnd h = some .restarted := by
  unfold Sub.replyEnd
  rw [check_of_incarnation hne]

theorem replyEnd_of_newer {b : Sub} {h : Header} (hinc : h.incarnation = b.incarnation) (hlo : 1 ≤ (h.epoch - b.epoch).toNat)
    (hhi : (h.epoch - b.epoch).toNat < 32768) : b.replyEnd h = some .epoch := by
  unfold Sub.replyEnd
  rw [check_of_newer hinc hlo hhi]

theorem replyEnd_of_older {b : Sub} {h : Header} (hinc : h.incarnation = b.incarnation)
    (hfar : 32768 < (h.epoch - b.epoch).toNat) : b.replyEnd h = some .fault := by
  unfold Sub.replyEnd
  rw [check_of_older hinc hfar]

theorem replyEnd_of_same {b : Sub} {h : Header} (hinc : h.incarnation = b.incarnation) (hepoch : h.epoch = b.epoch) :
    b.replyEnd h = none := by
  unfold Sub.replyEnd
  rw [check_of_same hinc hepoch]

theorem execRefuseFrame_of_request {a : Arrival} {g : TagIdx} {b : Binding} {s : State} (haccepts : s.accepts .refuse a = true)
    (ha : s.answers .refuse a.header g b) (hjoin : b.request.isJoin = false) : exec (.refuseFrame a) s =
      match (s.sub b.sub).replyEnd a.header with
      | some e => .next ((s.freeTag g).endNow b.sub e)
      | none => .next ((s.freeTag g).endNow b.sub (requestRefusal a.header.reason)) := by
  change execRefuseFrame a s = _
  unfold execRefuseFrame
  rw [if_pos haccepts, matchReply_of_answers ha, tag_of_answers ha]
  cases hb : b.request with
  | join newest => exact absurd (hb ▸ hjoin) (by simp [Request.isJoin])
  | fetch q n gen =>
    simp only [hb]
    rfl
  | pull q c n blk =>
    simp only [hb]
    rfl

theorem execListingFrame_of_replyEnd {a : Arrival} {g : TagIdx} {b : Binding} {s : State} {e : EndReason}
    (haccepts : s.accepts .listing a = true) (ha : s.answers .listing a.header g b)
    (hend : (s.sub b.sub).replyEnd a.header = some e) : exec (.listingFrame a) s = .next ((s.freeTag g).endNow b.sub e) := by
  change execListingFrame a s = _
  unfold execListingFrame
  rw [if_pos haccepts, matchReply_of_answers ha, tag_of_answers ha]
  dsimp only
  rw [show ((s.freeTag g).sub b.sub).replyEnd a.header = some e from hend]

theorem execPayloadFrame_of_replyEnd {a : Arrival} {g : TagIdx} {b : Binding} {s : State} {e : EndReason}
    (haccepts : s.accepts .payload a = true) (ha : s.answers .payload a.header g b)
    (hend : (s.sub b.sub).replyEnd a.header = some e) : exec (.payloadFrame a) s = .next ((s.freeTag g).endNow b.sub e) := by
  change execPayloadFrame a s = _
  unfold execPayloadFrame
  rw [if_pos haccepts, matchReply_of_answers ha, tag_of_answers ha]
  dsimp only
  rw [show ((s.freeTag g).sub b.sub).replyEnd a.header = some e from hend]

/-- Only a REFUSE, a LISTING and a PAYLOAD answer a FETCH or PULL (Table 5-3). -/
theorem kind_of_replyFits {k : FrameKind} {q : Request} (h : replyFits k q = true) (hjoin : q.isJoin = false) :
    k = .refuse ∨ k = .listing ∨ k = .payload := by
  cases k with
  | refuse => exact .inl rfl
  | listing => exact .inr (.inl rfl)
  | payload => exact .inr (.inr rfl)
  | _ => cases q <;> simp [replyFits, Request.isJoin] at h hjoin

/-- The row of a frame that answers a FETCH or PULL. -/
theorem instr_of_arrival {c : Instr} {k : FrameKind} {a : Arrival} (h : c.arrival = some (k, a))
    (hk : k = .refuse ∨ k = .listing ∨ k = .payload) : (k = .refuse ∧ c = .refuseFrame a) ∨
      (k = .listing ∧ c = .listingFrame a) ∨ (k = .payload ∧ c = .payloadFrame a) := by
  cases c with
  | refuseFrame a' => obtain ⟨rfl, rfl⟩ := Prod.mk.inj (Option.some.inj h); exact .inl ⟨rfl, rfl⟩
  | listingFrame a' => obtain ⟨rfl, rfl⟩ := Prod.mk.inj (Option.some.inj h); exact .inr (.inl ⟨rfl, rfl⟩)
  | payloadFrame a' => obtain ⟨rfl, rfl⟩ := Prod.mk.inj (Option.some.inj h); exact .inr (.inr ⟨rfl, rfl⟩)
  | requestFrame kind a' => cases kind <;> obtain ⟨rfl, rfl⟩ := Prod.mk.inj (Option.some.inj h) <;> simp at hk
  | helloFrame a' | helloRosterRemoval a' | announceFrame a' | leaveFrame a' | releaseFrame a' | evictFrame a' | welcomeFrame a' =>
    obtain ⟨rfl, rfl⟩ := Prod.mk.inj (Option.some.inj h)
    simp at hk
  | _ => exact absurd h (by simp [Instr.arrival])

/-- A reply to a FETCH or PULL that SBM's checks end. -/
theorem exec_of_replyEnd {c : Instr} {k : FrameKind} {a : Arrival} {g : TagIdx} {b : Binding} {s : State} {e : EndReason}
    (harrival : c.arrival = some (k, a)) (haccepts : s.accepts k a = true) (ha : s.answers k a.header g b)
    (hjoin : b.request.isJoin = false) (hend : (s.sub b.sub).replyEnd a.header = some e) :
    exec c s = .next ((s.freeTag g).endNow b.sub e) := by
  obtain ⟨-, -, -, -, -, hfits⟩ := id ha
  rcases instr_of_arrival harrival (kind_of_replyFits hfits hjoin) with ⟨rfl, rfl⟩ | ⟨rfl, rfl⟩ | ⟨rfl, rfl⟩
  · rw [execRefuseFrame_of_request haccepts ha hjoin, hend]
  · exact execListingFrame_of_replyEnd haccepts ha hend
  · exact execPayloadFrame_of_replyEnd haccepts ha hend

theorem refusedRequestEndsSubscription : Part.RefusedRequestEndsSubscription := by
  intro c k a g b s harrival haccepts ha hjoin ends
  have hends {e : EndReason} (h : exec c s = .next ((s.freeTag g).endNow b.sub e)) : ends e := by
    have hended := endNow_sub (s.freeTag g) b.sub e
    exact ⟨_, h, hended.state, hended.reason, hended.dp, (endNow_consumerSide (s.freeTag g) b.sub e).pub⟩
  have hchecked {e : EndReason} (h : (s.sub b.sub).replyEnd a.header = some e) : ends e :=
    hends (exec_of_replyEnd harrival haccepts ha hjoin h)
  refine ⟨fun hne => hchecked (replyEnd_of_incarnation hne), fun hinc => ⟨fun hlo hhi => hchecked (replyEnd_of_newer hinc hlo hhi),
    fun hfar => hchecked (replyEnd_of_older hinc hfar), fun hepoch hk => hends ?_⟩⟩
  subst hk
  rcases instr_of_arrival harrival (.inl rfl) with ⟨-, rfl⟩ | ⟨h, -⟩ | ⟨h, -⟩
  · rw [execRefuseFrame_of_request haccepts ha hjoin, replyEnd_of_same hinc hepoch]
    rfl
  · exact absurd h (by decide)
  · exact absurd h (by decide)

/-- Settles O41. -/
theorem refusalOutcomes : Obligations.RefusalOutcomes :=
  ⟨refuseEndsJoining, refuseInLeaving, refusedRequestEndsSubscription⟩

end Sys2Proof.Machine
end

section
/-! PROOFS. The entries of the cache: what `entryAt` reads after each change of the lines (R48, R52, R53), and the abandonment
of a PULL (R106). -/
namespace Sys2Proof.Machine

/-! ### Groups and places -/

theorem groupOf_add_place (q : Seq) : seqOfPlace (groupOf q) (placeOf q).val = q := by
  have hplace : BitVec.ofNat 32 (placeOf q).val = q &&& 7 := by
    apply BitVec.eq_of_toNat_eq
    have h7 : q.toNat &&& 7 = q.toNat % 8 := Nat.and_two_pow_sub_one_eq_mod q.toNat 3
    have := q.isLt
    simp only [placeOf, BitVec.toNat_ofNat, BitVec.toNat_and]
    rw [show (7 : Seq).toNat = 7 from rfl, h7]
    omega
  unfold seqOfPlace groupOf
  rw [hplace, BitVec.add_eq_or_of_and_eq_zero]
  · rw [← BitVec.and_or_distrib_left]
    exact BitVec.and_allOnes
  · rw [BitVec.and_comm q 7, BitVec.and_assoc q, ← BitVec.and_assoc 0xFFFFFFF8 7 q]
    exact (congrArg (q &&& ·) (BitVec.zero_and)).trans BitVec.and_zero

theorem groupOf_toNat (q : Seq) : (groupOf q).toNat = q.toNat - q.toNat % 8 := by
  have h := congrArg BitVec.toNat (groupOf_add_place q)
  have hq := q.isLt
  have hle : (groupOf q).toNat ≤ q.toNat := by
    unfold groupOf
    rw [BitVec.toNat_and]
    exact Nat.and_le_left
  simp only [seqOfPlace, placeOf, BitVec.toNat_add, BitVec.toNat_ofNat] at h
  omega

theorem eq_of_group_place {p q : Seq} (hgroup : groupOf p = groupOf q) (hplace : placeOf p = placeOf q) : p = q := by
  rw [← groupOf_add_place p, ← groupOf_add_place q, hgroup, hplace]

/-! ### The line of a group -/

theorem isFor_iff {i : SubIdx} {g : Seq} {l : Line} : Line.isFor i g l = true ↔ ∃ es, l = .assigned i g es := by
  unfold Line.isFor
  split
  · simp
  · rename_i h
    simp only [Bool.false_eq_true, false_iff, not_exists]
    exact fun es e => h _ _ _ e

/-- The entries that stand for a group of a subscription. -/
def State.groupAt (s : State) (i : SubIdx) (g : Seq) : Option Line := s.dpc.lines.toList.find? (Line.isFor i g)

theorem groupAt_eq_some {s : State} {i : SubIdx} {g : Seq} {l : Line} (h : s.groupAt i g = some l) : ∃ es, l = .assigned i g es :=
  isFor_iff.1 (List.find?_some h)

theorem entryAt_of_groupAt {s : State} {i : SubIdx} {q : Seq} {es : Vector Entry 8}
    (h : s.groupAt i (groupOf q) = some (.assigned i (groupOf q) es)) : s.entryAt i q = es.get (placeOf q) := by
  unfold State.entryAt
  rw [show s.dpc.lines.toList.find? (Line.isFor i (groupOf q)) = _ from h]

theorem entryAt_of_no_group {s : State} {i : SubIdx} {q : Seq} (h : s.groupAt i (groupOf q) = none) : s.entryAt i q = .empty := by
  unfold State.entryAt
  rw [show s.dpc.lines.toList.find? (Line.isFor i (groupOf q)) = _ from h]

/-- A sequence with an entry that is not EMPTY has a line. -/
theorem groupAt_of_entry {s : State} {i : SubIdx} {q : Seq} (h : s.entryAt i q ≠ .empty) :
    ∃ es, s.groupAt i (groupOf q) = some (.assigned i (groupOf q) es) := by
  cases hgroup : s.groupAt i (groupOf q) with
  | none => exact absurd (entryAt_of_no_group hgroup) h
  | some l =>
    obtain ⟨es, rfl⟩ := groupAt_eq_some hgroup
    exact ⟨es, rfl⟩

theorem mapTable_toList {α β : Type} {n : Nat} (f : α → β) (v : Vector α n) : (mapTable f v).toList = v.toList.map f := rfl

/-- A change of lines that keeps what each line stands for. -/
theorem groupAt_mapLines {s : State} {i : SubIdx} {g : Seq} {f : Line → Line}
    (hf : ∀ l, Line.isFor i g (f l) = Line.isFor i g l) : (s.mapLines f).groupAt i g = (s.groupAt i g).map f := by
  have hcomp : Line.isFor i g ∘ f = Line.isFor i g := funext hf
  unfold State.groupAt State.mapLines
  rw [mapTable_toList, List.find?_map, hcomp]

/-- A change of lines after which none stands for the group. -/
theorem groupAt_mapLines_none {s : State} {i : SubIdx} {g : Seq} {f : Line → Line} (hf : ∀ l, Line.isFor i g (f l) = false) :
    (s.mapLines f).groupAt i g = none := by
  unfold State.groupAt State.mapLines
  rw [mapTable_toList, List.find?_eq_none]
  intro l hl
  obtain ⟨m, -, rfl⟩ := List.mem_map.1 hl
  rw [hf]
  exact Bool.false_ne_true

/-! ### Entries after a change -/

/-- The change of a line by which `mapEntries` works. -/
def Line.mapEntries (i : SubIdx) (f : Seq → Entry → Entry) : Line → Line
  | .assigned o g es => if o == i then .assigned o g (Vector.ofFn fun k => f (seqOfPlace g k.val) (es.get k)) else .assigned o g es
  | l => l

theorem mapEntries_eq (s : State) (i : SubIdx) (f : Seq → Entry → Entry) : s.mapEntries i f = s.mapLines (Line.mapEntries i f) := by
  unfold State.mapEntries
  congr 1
  funext l
  cases l <;> rfl

theorem isFor_mapEntries (i j : SubIdx) (g : Seq) (f : Seq → Entry → Entry) (l : Line) :
    Line.isFor i g (l.mapEntries j f) = Line.isFor i g l := by
  cases l with
  | assigned o g' es =>
    change Line.isFor i g (if o == j then _ else _) = _
    split <;> rfl
  | _ => rfl

theorem entryAt_mapEntries {s : State} {i : SubIdx} {q : Seq} (f : Seq → Entry → Entry)
    (hf : s.entryAt i q ≠ .empty ∨ f q .empty = .empty) : (s.mapEntries i f).entryAt i q = f q (s.entryAt i q) := by
  rw [mapEntries_eq]
  have hmap := groupAt_mapLines (s := s) (i := i) (g := groupOf q) (isFor_mapEntries i i (groupOf q) f)
  cases hgroup : s.groupAt i (groupOf q) with
  | none =>
    rw [hgroup] at hmap
    have hempty := entryAt_of_no_group hgroup
    rw [entryAt_of_no_group hmap, hempty]
    exact (hf.resolve_left (not_not.2 hempty)).symm
  | some l =>
    obtain ⟨es, rfl⟩ := groupAt_eq_some hgroup
    rw [hgroup, Option.map_some, Line.mapEntries, if_pos (beq_self_eq_true i)] at hmap
    rw [entryAt_of_groupAt hmap, entryAt_of_groupAt hgroup]
    simp only [Vector.get_eq_getElem, Vector.getElem_ofFn]
    exact congrArg (fun x => f x _) (groupOf_add_place q)

/-- The change of a line by which `setEntry` works. -/
def Line.setEntry (i : SubIdx) (q : Seq) (e : Entry) : Line → Line
  | .assigned o g es => if o == i && g == groupOf q then .assigned o g (es.set (placeOf q) e) else .assigned o g es
  | l => l

theorem setEntry_eq (s : State) (i : SubIdx) (q : Seq) (e : Entry) : s.setEntry i q e = s.mapLines (Line.setEntry i q e) := by
  unfold State.setEntry
  congr 1
  funext l
  cases l <;> rfl

theorem isFor_setEntry (i j : SubIdx) (g q : Seq) (e : Entry) (l : Line) :
    Line.isFor i g (l.setEntry j q e) = Line.isFor i g l := by
  cases l with
  | assigned o g' es =>
    change Line.isFor i g (if o == j && g' == groupOf q then _ else _) = _
    split <;> rfl
  | _ => rfl

theorem groupAt_setEntry (s : State) (i j : SubIdx) (q g : Seq) (e : Entry) :
    (s.setEntry j q e).groupAt i g = (s.groupAt i g).map (Line.setEntry j q e) := by
  rw [setEntry_eq]
  exact groupAt_mapLines (isFor_setEntry i j g q e)

theorem entryAt_setEntry_self {s : State} {i : SubIdx} {q : Seq} (e : Entry) (h : s.entryAt i q ≠ .empty) :
    (s.setEntry i q e).entryAt i q = e := by
  obtain ⟨es, hgroup⟩ := groupAt_of_entry h
  have hset := groupAt_setEntry s i i q (groupOf q) e
  rw [hgroup, Option.map_some, Line.setEntry, if_pos (by simp)] at hset
  rw [entryAt_of_groupAt hset]
  simp [Vector.get_eq_getElem]

theorem entryAt_setEntry_ne {s : State} {i : SubIdx} {p q : Seq} (e : Entry) (h : p ≠ q) :
    (s.setEntry i q e).entryAt i p = s.entryAt i p := by
  have hset := groupAt_setEntry s i i q (groupOf p) e
  cases hgroup : s.groupAt i (groupOf p) with
  | none =>
    rw [hgroup] at hset
    rw [entryAt_of_no_group hset, entryAt_of_no_group hgroup]
  | some l =>
    obtain ⟨es, rfl⟩ := groupAt_eq_some hgroup
    rw [hgroup, Option.map_some, Line.setEntry] at hset
    rw [entryAt_of_groupAt hgroup]
    by_cases hsame : groupOf p = groupOf q
    · have hplace : (placeOf q).val ≠ (placeOf p).val := fun hk => h (eq_of_group_place hsame (Fin.ext hk.symm))
      rw [if_pos (by simp [hsame])] at hset
      rw [entryAt_of_groupAt hset]
      simp [Vector.get_eq_getElem, hplace]
    · rw [if_neg (by simp [hsame])] at hset
      rw [entryAt_of_groupAt hset]

theorem entryAt_congr {s t : State} (h : t.dpc.lines = s.dpc.lines) (i : SubIdx) (q : Seq) : t.entryAt i q = s.entryAt i q := by
  unfold State.entryAt
  rw [h]

/-! ### Released lines (R52) -/

/-- The lines after the release of those a subscription does not need. -/
def State.releaseUnneeded (s : State) (i : SubIdx) : State := s.mapLines fun l => if l.unneeded i (s.sub i) then .free else l

theorem unneeded_of_isFor {i : SubIdx} {g : Seq} {b : Sub} {l : Line} (h : Line.isFor i g l = true) :
    l.unneeded i b = !b.needsGroup g := by
  obtain ⟨es, rfl⟩ := isFor_iff.1 h
  exact (congrArg (· && _) (beq_self_eq_true i)).trans (Bool.true_and _)

theorem groupAt_releaseUnneeded (s : State) (i : SubIdx) (g : Seq) :
    (s.releaseUnneeded i).groupAt i g = if (s.sub i).needsGroup g then s.groupAt i g else none := by
  by_cases hneed : (s.sub i).needsGroup g = true
  · rw [if_pos hneed]
    have hkeep (l : Line) (h : Line.isFor i g l = true) : (if l.unneeded i (s.sub i) then Line.free else l) = l := by
      rw [unneeded_of_isFor h, hneed]
      exact if_neg Bool.false_ne_true
    unfold State.releaseUnneeded
    rw [groupAt_mapLines fun l => ?_]
    · cases hgroup : s.groupAt i g with
      | none => rfl
      | some l => exact congrArg some (hkeep l (List.find?_some hgroup))
    · by_cases h : Line.isFor i g l = true
      · rw [hkeep l h]
      · split
        · exact (Bool.eq_false_iff.2 h).symm
        · rfl
  · rw [if_neg hneed]
    refine groupAt_mapLines_none fun l => ?_
    by_cases h : Line.isFor i g l = true
    · rw [unneeded_of_isFor h, Bool.eq_false_iff.2 hneed]
      rfl
    · split
      · rfl
      · exact Bool.eq_false_iff.2 h

theorem ownedBy_of_isFor {i : SubIdx} {g : Seq} {l : Line} (h : Line.isFor i g l = true) : l.ownedBy i = true := by
  obtain ⟨es, rfl⟩ := isFor_iff.1 h
  exact beq_self_eq_true i

/-- A subscription that holds no line has none for a group. -/
theorem groupAt_of_no_lines {s : State} {i : SubIdx} (h : s.linesHeld i = 0) (g : Seq) : s.groupAt i g = none := by
  refine List.find?_eq_none.2 fun l hl hfor => ?_
  have hmem := List.mem_filter.2 ⟨hl, ownedBy_of_isFor hfor⟩
  rw [List.length_eq_zero_iff.1 h] at hmem
  exact absurd hmem (by simp)

theorem setLine_toList (s : State) (l : LineIdx) (x : Line) : (s.setLine l x).dpc.lines.toList = s.dpc.lines.toList.set l x := by
  unfold State.setLine
  exact Vector.toList_set l.isLt

/-- The one line that a subscription gets anew holds nothing. -/
theorem entryAt_setLine_of_no_lines {s : State} {i : SubIdx} (h : s.linesHeld i = 0) (l : LineIdx) (g q : Seq) :
    (s.setLine l (.assigned i g emptyEntries)).entryAt i q = .empty := by
  cases hgroup : (s.setLine l (.assigned i g emptyEntries)).groupAt i (groupOf q) with
  | none => exact entryAt_of_no_group hgroup
  | some x =>
    obtain ⟨es, rfl⟩ := groupAt_eq_some hgroup
    have hmem := List.mem_of_find?_eq_some hgroup
    rw [setLine_toList] at hmem
    rcases List.mem_or_eq_of_mem_set hmem with hold | hnew
    · have := List.find?_eq_none.1 (groupAt_of_no_lines h (groupOf q)) _ hold
      exact absurd (isFor_iff.2 ⟨es, rfl⟩) this
    · obtain ⟨-, -, rfl⟩ := Line.assigned.inj hnew
      rw [entryAt_of_groupAt hgroup]
      simp [emptyEntries, Vector.get_eq_getElem]

theorem entryAt_releaseUnneeded (s : State) (i : SubIdx) (q : Seq) : (s.releaseUnneeded i).entryAt i q =
    if (s.sub i).needsGroup (groupOf q) then s.entryAt i q else .empty := by
  have hgroup := groupAt_releaseUnneeded s i (groupOf q)
  by_cases hneed : (s.sub i).needsGroup (groupOf q) = true
  · rw [if_pos hneed] at hgroup ⊢
    unfold State.groupAt at hgroup
    unfold State.entryAt
    rw [hgroup]
  · rw [if_neg hneed] at hgroup ⊢
    exact entryAt_of_no_group hgroup

/-- Trimming keeps the entries of the groups that the subscription needs, and no other (R52). -/
theorem entryAt_trimLines (s : State) (i : SubIdx) (q : Seq) : (s.trimLines i).entryAt i q =
    if (s.sub i).needsGroup (groupOf q) then s.entryAt i q else .empty := by
  have hreleased := entryAt_releaseUnneeded s i q
  unfold State.trimLines
  change (if (s.releaseUnneeded i).linesHeld i = 0 then
    match s.lastLine (Line.unneeded i (s.sub i)) with
    | some l => (s.releaseUnneeded i).setLine l (.assigned i (groupOf (s.sub i).dp) emptyEntries)
    | none => s.releaseUnneeded i else s.releaseUnneeded i).entryAt i q = _
  split
  · rename_i hnone
    split
    · rw [entryAt_setLine_of_no_lines hnone, ← hreleased]
      exact (entryAt_of_no_group (groupAt_of_no_lines hnone _)).symm
    · exact hreleased
  · exact hreleased

/-! ### The groups that a subscription needs -/

theorem group_dist {p q : Seq} (h : (q - p).toNat < 4294967288) : (groupOf q - groupOf p).toNat =
    p.toNat % 8 + (q - p).toNat - (p.toNat % 8 + (q - p).toNat) % 8 := by
  rw [BitVec.toNat_sub, groupOf_toNat, groupOf_toNat]
  rw [BitVec.toNat_sub] at h ⊢
  have hp := p.isLt
  have hq := q.isLt
  omega

/-- Every sequence of [DP, AP) stands in a group that the subscription needs. -/
theorem needsGroup_of_inRange {b : Sub} {q : Seq} (hq : (q - b.dp).toNat < (b.ap - b.dp).toNat)
    (hdepth : (b.ap - b.dp).toNat < 4294967288) : b.needsGroup (groupOf q) = true := by
  have hne : b.ap ≠ b.dp := by
    intro h
    rw [h, BitVec.sub_self] at hq
    exact absurd hq (by simp)
  have hlast : (b.ap - 1 - b.dp).toNat = (b.ap - b.dp).toNat - 1 := by
    have : b.ap - 1 - b.dp = b.ap - b.dp - 1 := by ring
    rw [this, BitVec.toNat_sub]
    have := (b.ap - b.dp).isLt
    simp only [BitVec.ofNat_eq_ofNat, BitVec.toNat_ofNat]
    omega
  unfold Sub.needsGroup
  rw [if_neg hne, decide_eq_true_eq, group_dist (by omega), group_dist (by omega), hlast]
  omega

/-! ### A cut (R53) -/

/-- The record after a cut. -/
def Sub.cutAt (b : Sub) (x : Seq) : Sub := { b with ap := seqMin b.ap x, fp := seqMin b.fp x }

theorem entryAt_cutAt {s : State} {i : SubIdx} {x : Seq} (h : seqUpTo (s.sub i).pp x = true) (q : Seq) :
    (s.cutAt i x).entryAt i q = if ((s.sub i).cutAt x).needsGroup (groupOf q) then
      (if seqUpTo x q then (s.entryAt i q).cut else s.entryAt i q) else .empty := by
  unfold State.cutAt
  rw [if_pos h]
  dsimp only
  have hsub : (((s.mapEntries i fun q e => if seqUpTo x q then e.cut else e).modSub i fun b =>
      { b with ap := seqMin b.ap x, fp := seqMin b.fp x }).sub i) = (s.sub i).cutAt x := sub_modSub_self _ _ _
  rw [entryAt_trimLines, hsub]
  have hmap := entryAt_mapEntries (s := s) (i := i) (q := q) (fun q e => if seqUpTo x q then e.cut else e)
    (.inr (by split <;> rfl))
  rw [← hmap]
  rfl

/-- The trimming of lines keeps everything but the lines. -/
theorem trimLines_sub (s : State) (i j : SubIdx) : (s.trimLines i).sub j = s.sub j := (trimLines_linesOnly s i).sub j

/-! ### The abandonment of a PULL (R106) -/

/-- The state after the discards of an abandonment, before the lines are trimmed. -/
def State.abandoned (s : State) (i : SubIdx) (q : Seq) : State :=
  (((s.discardBlocks i fun r => inRange q (s.sub i).pp r).mapEntries i fun r e =>
    if inRange q (s.sub i).pp r then .empty else e).modSub i fun b =>
      { b with pp := q, fp := q, ap := q, pulls := b.pulls.filter fun p => !inRange q (s.sub i).pp p.image.seq })

theorem abandonPull_eq (s : State) (i : SubIdx) (q : Seq) : s.abandonPull i q =
    if inRange (s.sub i).dp (s.sub i).pp q then (s.abandoned i q).trimLines i else s := rfl

theorem abandoned_sub (s : State) (i : SubIdx) (q : Seq) : (s.abandoned i q).sub i = { s.sub i with
    pp := q, fp := q, ap := q, pulls := (s.sub i).pulls.filter fun p => !inRange q (s.sub i).pp p.image.seq } :=
  sub_modSub_self _ _ _

theorem abandonPull_sub_ne (s : State) {i j : SubIdx} (q : Seq) (h : j ≠ i) : (s.abandonPull i q).sub j = s.sub j := by
  rw [abandonPull_eq]
  split
  · rw [trimLines_sub]
    exact sub_modSub_ne _ _ (Ne.symm h)
  · rfl

/-- What an abandonment leaves alone. -/
theorem abandonPull_rest (s : State) (i : SubIdx) (q : Seq) : (s.abandonPull i q).lpc = s.lpc ∧
    (s.abandonPull i q).liu = s.liu ∧ (s.abandonPull i q).pub = s.pub ∧ (s.abandonPull i q).rqt = s.rqt ∧
    (s.abandonPull i q).memory = s.memory := by
  rw [abandonPull_eq]
  split
  · rw [trimLines_linesOnly (s.abandoned i q) i]
    exact ⟨rfl, rfl, rfl, rfl, rfl⟩
  · exact ⟨rfl, rfl, rfl, rfl, rfl⟩

theorem abandoned_entry {s : State} {i : SubIdx} {q r : Seq} (h : inRange q (s.sub i).pp r = true) :
    ((s.abandoned i q).trimLines i).entryAt i r = .empty := by
  have hmap := entryAt_mapEntries (s := s.discardBlocks i fun r => inRange q (s.sub i).pp r) (i := i) (q := r)
    (fun r e => if inRange q (s.sub i).pp r then .empty else e) (.inr (by split <;> rfl))
  rw [entryAt_trimLines]
  split
  · exact hmap.trans (if_pos h)
  · rfl

theorem discardBlocks_get (s : State) (i : SubIdx) (p : Seq → Bool) (n : Nat) :
    (s.discardBlocks i p).pdu.blocks[n]? = (s.pdu.blocks[n]?).map (Block.discard i p) := List.getElem?_map

/-- The end of a PULL with its abandonment, as the statements have it. -/
theorem pullAbandoned_of_endPull {s v : State} {i : SubIdx} (q : Seq) (hsub : v.sub i = s.sub i) (hpdu : v.pdu = s.pdu)
    (hdpc : v.dpc = s.dpc) : s.pullAbandoned ((v.endPull i).abandonPull i q) i q := by
  have hend : (v.endPull i).sub i = { s.sub i with pullsOut := (s.sub i).pullsOut - 1 } := by
    rw [← hsub]
    exact sub_modSub_self _ _ _
  by_cases hin : inRange (s.sub i).dp (s.sub i).pp q = true
  · have heq : (v.endPull i).abandonPull i q = ((v.endPull i).abandoned i q).trimLines i := by
      rw [abandonPull_eq, hend]
      exact if_pos hin
    have hrecord : ((v.endPull i).abandonPull i q).sub i = { s.sub i with
        pullsOut := (s.sub i).pullsOut - 1, pp := q, fp := q, ap := q,
        pulls := (s.sub i).pulls.filter fun p => !inRange q (s.sub i).pp p.image.seq } := by
      rw [heq, trimLines_sub, abandoned_sub, hend]
    have hblocks (n : Nat) : ((v.endPull i).abandonPull i q).pdu.blocks[n]? =
        (s.pdu.blocks[n]?).map (Block.discard i fun r => inRange q (s.sub i).pp r) := by
      rw [heq, trimLines_linesOnly, ← hpdu]
      refine (discardBlocks_get (v.endPull i) i _ n).trans ?_
      rw [hend]
      rfl
    have hlater (r : Seq) : inRange q (s.sub i).pp r = true ↔ (r - q).toNat < ((s.sub i).pp - q).toNat := decide_eq_true_iff
    unfold State.pullAbandoned
    rw [hrecord]
    refine ⟨rfl, rfl, rfl, rfl, rfl, rfl, fun _ => ⟨rfl, rfl, rfl, fun r hr => ?_, fun p => ?_, fun n k r hn hr => ?_,
      fun n x hn hx => ?_⟩, fun hout => absurd (of_decide_eq_true hin) (Nat.not_lt.2 hout)⟩
    · rw [heq]
      refine abandoned_entry ?_
      rw [hend]
      exact (hlater r).2 hr
    · rw [List.mem_filter, Bool.not_eq_true', ← Bool.not_eq_true, hlater]
    · rw [hblocks, hn, Option.map_some, Block.discard, if_pos]
      simp [(hlater r).2 hr]
    · rw [hblocks, hn, Option.map_some]
      cases x with
      | filling o r k =>
        refine congrArg some (if_neg fun hboth => ?_)
        obtain ⟨ho, hr⟩ := Bool.and_eq_true_iff.1 hboth
        obtain rfl := beq_iff_eq.1 ho
        exact hx r k rfl ((hlater r).1 hr)
      | _ => rfl
  · have heq : (v.endPull i).abandonPull i q = v.endPull i := by
      rw [abandonPull_eq, hend]
      exact if_neg hin
    unfold State.pullAbandoned
    rw [heq, hend]
    exact ⟨rfl, rfl, rfl, rfl, rfl, rfl, fun h => absurd (decide_eq_true h) hin, fun _ => ⟨rfl, rfl, rfl, rfl, hdpc, hpdu⟩⟩

end Sys2Proof.Machine
end

section
/-! PROOFS. The PAYLOAD (R93 to R95, R106). -/
namespace Sys2Proof.Machine

/-- A PAYLOAD that passes SBM's checks. -/
theorem execPayloadFrame_of_pass {a : Arrival} {g : TagIdx} {i : SubIdx} {q : Seq} {c n blk att : Nat} {dl : Timer} {s : State}
    (haccepts : s.accepts .payload a = true)
    (ha : s.answers .payload a.header g { sub := i, request := .pull q c n blk, attempts := att, deadline := dl })
    (hinc : a.header.incarnation = (s.sub i).incarnation) (hepoch : a.header.epoch = (s.sub i).epoch) :
    exec (.payloadFrame a) s =
      .next ((settle (((s.freeTag g).endPull i).takePayload i q c n blk a.body)).leaveTest i) := by
  change execPayloadFrame a s = _
  unfold execPayloadFrame
  rw [if_pos haccepts, matchReply_of_answers ha, tag_of_answers ha]
  dsimp only
  rw [show ((s.freeTag g).sub i).replyEnd a.header = none from replyEnd_of_same hinc hepoch]

theorem payload_length {s : State} {a : Arrival} (haccepts : s.accepts .payload a = true) : a.body.length ≤ 256 := by
  obtain ⟨-, -, -, hformed, -⟩ := (receiveFilter s .payload a).1 haccepts
  obtain ⟨-, -, hbody, -, -, -, -, hchunk, -⟩ := hformed
  obtain ⟨-, -, hlength, -⟩ := hchunk (.inr rfl)
  rw [hbody]
  simpa using hlength

/-! ### A PAYLOAD of a wrong length (R94) -/

theorem takePayload_of_wrong_length {s : State} {i : SubIdx} {n : Nat} {body : List Byte} (h : body.length ≠ n) (q : Seq)
    (c blk : Nat) : s.takePayload i q c n blk body =
      if (s.sub i).state = .leaving then s.abandonPull i q else s.forcedEnd i .fault := if_pos h

theorem endPull_sub (s : State) (i : SubIdx) : (s.endPull i).sub i = { s.sub i with pullsOut := (s.sub i).pullsOut - 1 } :=
  sub_modSub_self _ _ _

theorem endPull_sub_ne (s : State) {i j : SubIdx} (h : j ≠ i) : (s.endPull i).sub j = s.sub j := sub_modSub_ne _ _ (Ne.symm h)

theorem forcedEnd_rqt (s : State) (i : SubIdx) (e : EndReason) : (s.forcedEnd i e).rqt = (s.cancelRequests i).rqt :=
  (forcedEnd_flushSide s i e).rqt

/-- A forced end binds no tag. -/
theorem forcedEnd_tag_free {s : State} {g : TagIdx} (h : (s.tag g).bound = none) (i : SubIdx) (e : EndReason) :
    ((s.forcedEnd i e).tag g).bound = none := by
  rw [tag_congr (forcedEnd_rqt s i e)]
  cases hbound : ((s.cancelRequests i).tag g).bound with
  | none => rfl
  | some b => exact absurd ((tag_cancelRequests hbound).symm.trans h) (Option.some_ne_none b)

theorem forcedEnd_rest (s : State) (i : SubIdx) (e : EndReason) : (s.forcedEnd i e).memory = s.memory ∧
    (s.forcedEnd i e).liu = s.liu ∧ (s.forcedEnd i e).pub = s.pub := by
  have hside := forcedEnd_flushSide s i e
  rw [hside.memory, hside.liu, hside.pub]
  exact ⟨rfl, rfl, rfl⟩

/-- A forced end with what it frees and the completion test of a leave. -/
theorem forcedEnd_settled (s : State) (i : SubIdx) (e : EndReason) :
    EndedAs e (s.sub i) (((settle (s.forcedEnd i e)).leaveTest i).sub i) :=
  ((forcedEnd_sub s i e).moves (settle_moves _)).moves (leaveTest_moves _ i)

theorem forcedEnd_settled_pub (s : State) (i : SubIdx) (e : EndReason) :
    ((settle (s.forcedEnd i e)).leaveTest i).pub = s.pub :=
  (((forcedEnd_consumerSide s i e).trans (settle_consumerSide _)).trans (leaveTest_consumerSide _ i)).pub

theorem wrongLengthPayloadFaults : Part.WrongLengthPayloadFaults := by
  intro a g i q c n blk dl att s haccepts ha hlength hstate hinc hepoch
  have hexec := execPayloadFrame_of_pass haccepts ha hinc hepoch
  have hsub := endPull_sub (s.freeTag g) i
  have hleaving : ¬ (((s.freeTag g).endPull i).sub i).state = .leaving := by
    rw [hsub]
    exact fun h => by rcases hstate with e | e <;> exact absurd (e.symm.trans h) (by decide)
  rw [takePayload_of_wrong_length hlength, if_neg hleaving] at hexec
  obtain ⟨hmemory, hliu, hforced⟩ := forcedEnd_rest ((s.freeTag g).endPull i) i .fault
  have hended := forcedEnd_sub ((s.freeTag g).endPull i) i .fault
  have hlast := forcedEnd_settled ((s.freeTag g).endPull i) i .fault
  have hpub := forcedEnd_settled_pub ((s.freeTag g).endPull i) i .fault
  have hdp : (((s.freeTag g).endPull i).sub i).dp = (s.sub i).dp := (congrArg Sub.dp hsub).trans rfl
  have hfree := forcedEnd_tag_free (s := (s.freeTag g).endPull i) (congrArg Tag.bound (freeTag_tag_self s g)) i .fault
  refine ⟨((s.freeTag g).endPull i).forcedEnd i .fault, _, hexec, rfl, ?_, hfree, hended.state, hended.reason,
    hended.dp.trans hdp, ?_, ?_, hlast.state, hlast.reason, hlast.dp.trans hdp, hpub⟩
  · exact hmemory.trans rfl
  · exact hliu.trans rfl
  · exact hforced.trans rfl

theorem wrongLengthPayloadInLeaving : Part.WrongLengthPayloadInLeaving := by
  intro a g i q c n blk dl att s haccepts ha hlength hstate hinc hepoch
  have hexec := execPayloadFrame_of_pass haccepts ha hinc hepoch
  have hleaving : (((s.freeTag g).endPull i).sub i).state = .leaving := by
    rw [endPull_sub]
    exact hstate
  rw [takePayload_of_wrong_length hlength, if_pos hleaving] at hexec
  obtain ⟨hlpc, hliu, hpub, hrqt, hmemory⟩ := abandonPull_rest ((s.freeTag g).endPull i) i q
  refine ⟨_, hexec, ?_, fun x hx => ?_, pullAbandoned_of_endPull q rfl rfl rfl, fun j hj => ?_, hlpc, hliu, hpub, hmemory⟩
  · rw [tag_congr hrqt]
    exact freeTag_tag_self s g
  · rw [tag_congr hrqt]
    exact freeTag_tag_ne s hx
  · rw [abandonPull_sub_ne _ _ hj]
    exact endPull_sub_ne _ hj

/-! ### A PAYLOAD of the length asked (R93, R95) -/

theorem takePayload_of_length (s : State) (i : SubIdx) (q : Seq) (c blk : Nat) (body : List Byte) :
    s.takePayload i q c body.length blk body = match (s.sub i).pullRecord q with
      | some p => s.writeChunk i p c blk body
      | none => s := if_neg (not_not.2 rfl)

theorem payloadOfDiscardedDescriptor : Part.PayloadOfDiscardedDescriptor := by
  intro a g i q c blk dl att s haccepts ha hinc hepoch hnone
  have hexec := execPayloadFrame_of_pass haccepts ha hinc hepoch
  have hrecord : (((s.freeTag g).endPull i).sub i).pullRecord q = none := by
    rw [endPull_sub]
    exact hnone
  rw [takePayload_of_length, hrecord] at hexec
  exact ⟨_, hexec, freeTag_tag_self s g, fun x hx => freeTag_tag_ne s hx, endPull_sub _ _, fun j hj => endPull_sub_ne _ hj, rfl,
    rfl, rfl, rfl, rfl, rfl⟩

/-- The state after the bytes and the record of a chunk. -/
def State.chunkWritten (s : State) (i : SubIdx) (p : PullRecord) (c blk : Nat) (body : List Byte) : State :=
  (s.putBytes (s.blockAddr blk) body).modSub i fun b =>
    { b with pulls := b.pulls.map fun x => if x.image.seq == p.image.seq then p.arrive c else x }

theorem writeChunk_eq (s : State) (i : SubIdx) (p : PullRecord) (c blk : Nat) (body : List Byte) :
    s.writeChunk i p c blk body = if (p.arrive c).full then
      (s.chunkWritten i p c blk body).setEntry i p.image.seq (.complete p.image) else s.chunkWritten i p c blk body := rfl

/-- A written chunk changes memory, the record of the descriptor and the lines, and nothing else. -/
theorem writeChunk_fields (s : State) (i : SubIdx) (p : PullRecord) (c blk : Nat) (body : List Byte) :
    (s.writeChunk i p c blk body).memory = (s.putBytes (s.blockAddr blk) body).memory ∧
    (s.writeChunk i p c blk body).subs = (s.modSub i fun b =>
      { b with pulls := b.pulls.map fun x => if x.image.seq == p.image.seq then p.arrive c else x }).subs ∧
    (s.writeChunk i p c blk body).rqt = s.rqt ∧ (s.writeChunk i p c blk body).pub = s.pub ∧
    (s.writeChunk i p c blk body).lpc = s.lpc ∧ (s.writeChunk i p c blk body).liu = s.liu ∧
    (s.writeChunk i p c blk body).pdu = s.pdu := by
  have hput := putBytes_eq body s (s.blockAddr blk)
  have hwritten : s.chunkWritten i p c blk body = { s.modSub i (fun b =>
      { b with pulls := b.pulls.map fun x => if x.image.seq == p.image.seq then p.arrive c else x }) with
      memory := (s.putBytes (s.blockAddr blk) body).memory } := by
    unfold State.chunkWritten
    rw [hput]
    rfl
  rw [writeChunk_eq]
  split
  · rw [hwritten]
    exact ⟨rfl, rfl, rfl, rfl, rfl, rfl, rfl⟩
  · rw [hwritten]
    exact ⟨rfl, rfl, rfl, rfl, rfl, rfl, rfl⟩

theorem arrive_image (p : PullRecord) (c : Nat) : (p.arrive c).image = p.image ∧ (p.arrive c).blocks = p.blocks ∧
    (p.arrive c).issued = p.issued ∧
    (p.arrive c).arrived = if c ∈ p.arrived then p.arrived else p.arrived ++ [c] := by
  unfold PullRecord.arrive
  by_cases h : c ∈ p.arrived
  · rw [if_pos (List.contains_iff_mem.2 h), if_pos h]
    exact ⟨rfl, rfl, rfl, rfl⟩
  · rw [if_neg (mt List.contains_iff_mem.1 h), if_neg h]
    exact ⟨rfl, rfl, rfl, rfl⟩

theorem pullRecord_seq {b : Sub} {q : Seq} {p : PullRecord} (h : b.pullRecord q = some p) : p.image.seq = q :=
  beq_iff_eq.1 (List.find?_some (p := fun p : PullRecord => p.image.seq == q) h)

/-- The record of a descriptor after one of its chunks has arrived. -/
theorem pullRecord_arrive {b : Sub} {q : Seq} {p : PullRecord} (h : b.pullRecord q = some p) (c : Nat) :
    ({ b with pulls := b.pulls.map fun x => if x.image.seq == p.image.seq then p.arrive c else x } : Sub).pullRecord q =
      some (p.arrive c) := by
  have hseq := pullRecord_seq h
  have hsame : ((fun x : PullRecord => x.image.seq == q) ∘ fun x => if x.image.seq == p.image.seq then p.arrive c else x) =
      fun x => x.image.seq == q := by
    funext x
    dsimp only [Function.comp]
    split
    · rename_i hx
      rw [(arrive_image p c).1, beq_iff_eq.1 hx]
    · rfl
  unfold Sub.pullRecord at h ⊢
  rw [List.find?_map, hsame, h]
  exact congrArg some (if_pos (beq_self_eq_true _))

theorem writeChunk_entry {s : State} {i : SubIdx} {p : PullRecord} (h : s.entryAt i p.image.seq = .pulling p.image) (c blk : Nat)
    (body : List Byte) : (s.writeChunk i p c blk body).entryAt i p.image.seq =
      if (p.arrive c).arrived.length = (p.image.length.toNat + 255) / 256 then .complete p.image else .pulling p.image := by
  have hlines : (s.chunkWritten i p c blk body).dpc.lines = s.dpc.lines := by
    unfold State.chunkWritten
    rw [putBytes_eq]
    rfl
  have hentry := (entryAt_congr hlines i p.image.seq).trans h
  have hfull : (p.arrive c).full = true ↔ (p.arrive c).arrived.length = (p.image.length.toNat + 255) / 256 := by
    unfold PullRecord.full
    rw [beq_iff_eq, (arrive_image p c).1]
    rfl
  rw [writeChunk_eq]
  by_cases hf : (p.arrive c).full = true
  · rw [if_pos hf, if_pos (hfull.1 hf)]
    exact entryAt_setEntry_self _ (by rw [hentry]; exact Entry.noConfusion)
  · rw [if_neg hf, if_neg (mt hfull.2 hf)]
    exact hentry

theorem payloadFillsItsBlock : Part.PayloadFillsItsBlock := by
  intro a g i q c blk dl att p s haccepts ha hinc hepoch hrecord hwf
  have hexec := execPayloadFrame_of_pass haccepts ha hinc hepoch
  have hrecord' : (((s.freeTag g).endPull i).sub i).pullRecord q = some p := by
    rw [endPull_sub]
    exact hrecord
  rw [takePayload_of_length, hrecord'] at hexec
  obtain ⟨hmemory, hsubs, hrqt, hpub, hlpc, hliu, hpdu⟩ := writeChunk_fields ((s.freeTag g).endPull i) i p c blk a.body
  obtain ⟨himage, hblocks, hissued, harrived⟩ := arrive_image p c
  have hsub := (sub_congr hsubs i).trans (sub_modSub_self _ _ _)
  have hbyte (x : Addr) : (((s.freeTag g).endPull i).writeChunk i p c blk a.body).byteAt x =
      (((s.freeTag g).endPull i).putBytes (s.blockAddr blk) a.body).byteAt x := congrArg (fun m => Memory.read m x.toNat) hmemory
  have hlength := payload_length haccepts
  refine ⟨_, hexec, fun k hk => ?_, fun x hx => ?_, ?_, ?_, ⟨p.arrive c, ?_, himage, hblocks, hissued, harrived, fun h => ?_⟩,
    fun j hj => ?_, hpub, hlpc, hliu, hpdu⟩
  · rw [hbyte, List.getD_eq_getElem _ _ hk]
    exact byteAt_putBytes (s := (s.freeTag g).endPull i) (a := s.blockAddr blk) hwf (by omega) hk
  · rw [hbyte]
    exact byteAt_putBytes_outside x a.body _ _ hx
  · rw [tag_congr hrqt]
    exact congrArg Tag.bound (freeTag_tag_self s g)
  · rw [hsub, endPull_sub]
    rfl
  · rw [hsub]
    exact pullRecord_arrive hrecord' c
  · obtain rfl := pullRecord_seq hrecord
    exact writeChunk_entry (s := (s.freeTag g).endPull i) h c blk a.body
  · rw [sub_congr hsubs, sub_modSub_ne _ _ (Ne.symm hj)]
    exact endPull_sub_ne _ hj

/-- Settles O43. -/
theorem payloadOutcomes : Obligations.PayloadOutcomes :=
  ⟨wrongLengthPayloadFaults, wrongLengthPayloadInLeaving, payloadOfDiscardedDescriptor, payloadFillsItsBlock⟩

end Sys2Proof.Machine
end

section
/-! PROOFS. The link's transmit side (R156 to R166) and the request tracker (R109 to R117): the first of a table in round-robin
order, the offers and their wins, grants and retries. -/
namespace Sys2Proof.Machine

/-! ### Round-robin order (R66, R88, R90, R96, R112, R161) -/

/-- The place of an index in the order that begins after `p`. -/
def turnAfter {n : Nat} (p j : Fin n) : Nat := (j.val + n - p.val - 1) % n

theorem turnAfter_of_gt {n : Nat} {p j : Fin n} (h : p.val < j.val) : turnAfter p j = j.val - p.val - 1 := by
  unfold turnAfter
  have hj := j.isLt
  rw [show j.val + n - p.val - 1 = n + (j.val - p.val - 1) by omega, Nat.add_mod_left, Nat.mod_eq_of_lt (by omega)]

theorem turnAfter_of_le {n : Nat} {p j : Fin n} (h : j.val ≤ p.val) : turnAfter p j = j.val + n - p.val - 1 := by
  unfold turnAfter
  have hp := p.isLt
  exact Nat.mod_eq_of_lt (by omega)

theorem mem_drop_finRange {n k : Nat} {j : Fin n} : j ∈ (List.finRange n).drop k ↔ k ≤ j.val := by
  rw [List.mem_iff_getElem]
  constructor
  · rintro ⟨m, hm, rfl⟩
    simp
  · intro h
    have hj := j.isLt
    exact ⟨j.val - k, by simp; omega, by simp [Fin.ext_iff]; omega⟩

theorem mem_take_finRange {n k : Nat} {j : Fin n} : j ∈ (List.finRange n).take k ↔ j.val < k := by
  rw [List.mem_iff_getElem]
  constructor
  · rintro ⟨m, hm, rfl⟩
    simp at hm ⊢
    omega
  · intro h
    have hj := j.isLt
    exact ⟨j.val, by simp; omega, by simp⟩

theorem mem_after {n : Nat} (p j : Fin n) : j ∈ after p := by
  unfold after
  rw [List.mem_append, mem_drop_finRange, mem_take_finRange]
  omega

/-- The round-robin list rises in the order after `p`. -/
theorem after_pairwise {n : Nat} (p : Fin n) : (after p).Pairwise fun j k => turnAfter p j < turnAfter p k := by
  have hlt := List.pairwise_lt_finRange n
  refine List.pairwise_append.2 ⟨?_, ?_, fun j hj k hk => ?_⟩
  · refine List.Pairwise.imp_of_mem (fun hj hk h => ?_) (hlt.sublist (List.drop_sublist (p.val + 1) _))
    rw [mem_drop_finRange] at hj hk
    rw [Fin.lt_def] at h
    rw [turnAfter_of_gt (by omega), turnAfter_of_gt (by omega)]
    omega
  · refine List.Pairwise.imp_of_mem (fun hj hk h => ?_) (hlt.sublist (List.take_sublist (p.val + 1) _))
    rw [mem_take_finRange] at hj hk
    rw [Fin.lt_def] at h
    rw [turnAfter_of_le (by omega), turnAfter_of_le (by omega)]
    omega
  · rw [mem_drop_finRange] at hj
    rw [mem_take_finRange] at hk
    have := j.isLt
    rw [turnAfter_of_gt (by omega), turnAfter_of_le (by omega)]
    omega

/-- In a list that rises by a measure, the first element that meets a test is the one of least measure. -/
theorem find?_of_least {α : Type} {m : α → Nat} {q : α → Bool} : ∀ {l : List α}, l.Pairwise (fun x y => m x < m y) →
    ∀ {i : α}, i ∈ l → q i = true → (∀ j ∈ l, q j = true → m i ≤ m j) → l.find? q = some i
  | x :: l, hl, i, hi, hqi, hleast => by
    obtain ⟨hx, hl⟩ := List.pairwise_cons.1 hl
    rcases List.mem_cons.1 hi with rfl | hi
    · exact List.find?_cons_of_pos hqi
    · have hqx : ¬ q x = true := fun hqx => Nat.not_le.2 (hx i hi) (hleast x List.mem_cons_self hqx)
      rw [List.find?_cons_of_neg hqx]
      exact find?_of_least hl hi hqi fun j hj => hleast j (List.mem_cons_of_mem x hj)

theorem find?_after {n : Nat} {p i : Fin n} {Q : Fin n → Prop} {q : Fin n → Bool} (h : firstAfter p Q i)
    (hq : ∀ j, q j = true ↔ Q j) : (after p).find? q = some i := by
  obtain ⟨hi, hleast⟩ := h
  exact find?_of_least (after_pairwise p) (mem_after p i) ((hq i).2 hi) fun j _ hj => hleast j ((hq j).1 hj)

theorem find?_after_none {n : Nat} {p : Fin n} {q : Fin n → Bool} (h : ∀ j, q j = false) : (after p).find? q = none :=
  List.find?_eq_none.2 fun j _ => by rw [h]; exact Bool.false_ne_true

/-! ### Arbitration (R156 to R166) -/

theorem keyWins_iff {own : Byte} {others : List Byte} : keyWins own others = true ↔ ∀ k ∈ others, own.toNat ≤ k.toNat := by
  unfold keyWins
  rw [List.all_eq_true]
  simp only [decide_eq_true_eq]

/-- An offer whose key wins. -/
theorem execArbitration_win {others : List Byte} {s : State} {o : Offer} (ho : s.offer = some o)
    (hkey : ∀ k ∈ others, (arbitrationKey (s.offerFrame o).kind s.lpc.stationNumber).toNat ≤ k.toNat) :
    exec (.arbitration others) s = .next ((s.win o).setTransmitting (some (s.offerFrame o))) := by
  change execArbitration others s = _
  unfold execArbitration
  rw [ho]
  exact if_pos (keyWins_iff.2 hkey)

theorem lossKeepsFrames : Part.LossKeepsFrames := by
  intro others s h
  change execArbitration others s = _
  unfold execArbitration
  rcases h with h | ⟨o, ho, k, hk, hlt⟩
  · rw [h]
    rfl
  · rw [ho]
    exact if_neg fun hwin => Nat.not_le.2 hlt (keyWins_iff.1 hwin k hk)

theorem offer_of_running {s : State} (h : s.lpc.state = .running) : s.offer =
    match s.liu.oneOff, s.nextAnnounce, s.nextRelease, s.liu.replies with
    | f :: _, _, _, _ => some (.oneOff f)
    | [], some r, _, _ => some (.announce r)
    | [], none, some i, _ => some (.release i)
    | [], none, none, f :: _ => some (.reply f)
    | [], none, none, [] => s.headRequest := if_pos (by simp [State.running, h])

theorem oneOffFrameWinsFirst : Part.OneOffFrameWinsFirst := by
  intro others f rest s hrunning honeOff hkey
  have ho : s.offer = some (.oneOff f) := by rw [offer_of_running hrunning, honeOff]
  rw [execArbitration_win ho hkey, State.win, honeOff]
  rfl

theorem class_zero_key (k : FrameKind) (h : kindClass k = 0) (source : Station) :
    (arbitrationKey k source).toNat = source.toNat := by
  rw [arbitrationKey_toNat, h]
  omega

theorem announceWinCarriesRecord : Part.AnnounceWinCarriesRecord := by
  intro others r s hrunning honeOff hfirst hkey
  have ho : s.offer = some (.announce r) := by
    rw [offer_of_running hrunning, honeOff, show s.nextAnnounce = some r from find?_after hfirst fun _ => Iff.rfl]
  refine ⟨s.announceFrame r, execArbitration_win ho fun k hk => ?_, rfl, rfl, rfl, rfl, rfl, ringField_toNat r, rfl, rfl, rfl,
    rfl⟩
  exact (class_zero_key .announce rfl _).trans_le (hkey k hk)

theorem nextAnnounce_none {s : State} (h : ∀ r, (s.ring r).announcePending = false) : s.nextAnnounce = none :=
  find?_after_none h

theorem nextRelease_none {s : State} (h : ∀ i, (s.sub i).releasePending = false) : s.nextRelease = none :=
  find?_after_none h

theorem win_release (s : State) (i : SubIdx) : s.win (.release i) =
    { s.modSub i (fun b => { b with releasePending := false, lastReported := b.rm, keepalive := some s.config.keepalive }) with
      liu := { s.liu with releasePtr := i } } :=
  congrArg (fun t : State => { s with subs := t.subs, liu := { s.liu with releasePtr := i } })
    (modSub_modSub s i (fun b => { b with releasePending := false, lastReported := b.rm })
      fun b => { b with keepalive := some s.config.keepalive })

theorem releaseWinReportsRm : Part.ReleaseWinReportsRm := by
  intro others i s hrunning honeOff hannounce hfirst hkey
  have ho : s.offer = some (.release i) := by
    rw [offer_of_running hrunning, honeOff, nextAnnounce_none hannounce,
      show s.nextRelease = some i from find?_after hfirst fun _ => Iff.rfl]
  refine ⟨s.releaseFrame i, ?_, rfl, rfl, rfl, ringField_toNat _, rfl⟩
  rw [execArbitration_win ho fun k hk => (class_zero_key .release rfl _).trans_le (hkey k hk), win_release]
  rfl

/-- Settles O24. -/
theorem controlFrameArbitration : Obligations.ControlFrameArbitration :=
  ⟨lossKeepsFrames, oneOffFrameWinsFirst, announceWinCarriesRecord, releaseWinReportsRm⟩

theorem replyWinLeavesQueue : Part.ReplyWinLeavesQueue := by
  intro others f rest s hrunning honeOff hannounce hrelease hreplies hkey
  have ho : s.offer = some (.reply f) := by
    rw [offer_of_running hrunning, honeOff, nextAnnounce_none hannounce, nextRelease_none hrelease, hreplies]
  rw [execArbitration_win ho hkey, State.win, hreplies]
  rfl

/-! ### Grants and retries (R111 to R115) -/

theorem repeatWhile_keeps {inv : State → Prop} {f : State → Option State} (hf : ∀ s t, f s = some t → inv s → inv t) :
    ∀ (n : Nat) (s : State), inv s → inv (repeatWhile f n s)
  | 0, _, hs => hs
  | n + 1, s, hs => by
    unfold repeatWhile
    split
    · exact hs
    · rename_i t ht
      exact repeatWhile_keeps hf n t (hf s t ht hs)

/-- What a grant and the move of a retry keep, the grants of an event keep. -/
theorem runGrants_keeps {inv : State → Prop}
    (hgrant : ∀ s t i q rest, (s.tag t).bound = none → (s.sub i).claims = q :: rest → inv s → inv (s.grantTo t i q))
    (hretry : ∀ s t rest, s.rqt.retryLine = t :: rest → inv s →
      inv { s with rqt := { s.rqt with queue := s.rqt.queue ++ [t], retryLine := rest } }) {s : State} (hs : inv s) :
    inv (runGrants s) := by
  refine repeatWhile_keeps (fun s t h hs => ?_) _ _ (repeatWhile_keeps (fun s t h hs => ?_) _ _ hs)
  · obtain ⟨g, i, q, rest, -, -, htag, -, hclaims, rfl⟩ := grantOnce_eq_some h
    exact hgrant s g i q rest (nextTag_free htag) hclaims hs
  · obtain ⟨g, rest, hline, -, rfl⟩ := moveRetryOnce_eq_some h
    exact hretry s g rest hline hs

theorem grantTo_sub (s : State) (t : TagIdx) (i : SubIdx) (q : Request) (j : SubIdx) : (s.grantTo t i q).sub j =
    if i = j then { s.sub j with claims := (s.sub j).claims.drop 1 } else s.sub j :=
  sub_modSub s i j fun b => { b with claims := b.claims.drop 1 }

theorem runGrants_dpc (s : State) : (runGrants s).dpc = s.dpc :=
  runGrants_keeps (inv := fun t => t.dpc = s.dpc) (fun _ _ _ _ _ _ _ h => h) (fun _ _ _ _ h => h) rfl

/-- Grants change nothing of a record but its claims. -/
theorem runGrants_sub (s : State) (j : SubIdx) : (runGrants s).sub j = { s.sub j with claims := ((runGrants s).sub j).claims } :=
  runGrants_keeps (inv := fun t => t.sub j = { s.sub j with claims := (t.sub j).claims }) (fun t g i q rest _ _ h => by
    rw [grantTo_sub]
    split
    · rw [h]
    · exact h) (fun _ _ _ _ h => h) rfl

/-- A bound tag stays as it is through grants. -/
theorem runGrants_tag {s : State} {g : TagIdx} {b : Binding} (h : (s.tag g).bound = some b) : (runGrants s).tag g = s.tag g :=
  runGrants_keeps (inv := fun t => t.tag g = s.tag g) (fun t x i q rest hfree _ ht => by
    have hne : x ≠ g := by
      rintro rfl
      rw [ht, h] at hfree
      exact absurd hfree (Option.some_ne_none b)
    rw [grantTo_tag_ne t i q hne, ht]) (fun _ _ _ _ ht => ht) rfl

/-- Grants add requests behind those that are queued. -/
theorem runGrants_queue (s : State) : s.rqt.queue <+: (runGrants s).rqt.queue :=
  runGrants_keeps (inv := fun t => s.rqt.queue <+: t.rqt.queue) (fun _ _ _ _ _ _ _ h => h.trans (List.prefix_append _ _))
    (fun _ _ _ _ h => h.trans (List.prefix_append _ _)) (List.prefix_refl _)

/-- A claim of a subscription with no other: it waits, or it is granted. -/
theorem runGrants_claim {s : State} {i : SubIdx} {q : Request} (h : (s.sub i).claims = [q]) :
    ((runGrants s).sub i).claims = [q] ∨
      ∃ g, ((runGrants s).tag g).bound = some { sub := i, request := q, attempts := 1, deadline := none } := by
  refine runGrants_keeps (inv := fun t => (t.sub i).claims = [q] ∨
    ∃ g, (t.tag g).bound = some { sub := i, request := q, attempts := 1, deadline := none }) (fun t x j p rest hfree hclaims ht => ?_)
    (fun _ _ _ _ ht => ht) (.inl h)
  rcases ht with ht | ⟨g, hg⟩
  · by_cases hj : j = i
    · subst hj
      obtain ⟨rfl, -⟩ := List.cons.inj (ht.symm.trans hclaims)
      exact .inr ⟨x, by rw [grantTo_tag_self]⟩
    · left
      rw [grantTo_sub, if_neg hj, ht]
  · have hne : x ≠ g := by
      rintro rfl
      exact absurd (hg.symm.trans hfree) (Option.some_ne_none _)
    exact .inr ⟨g, by rw [grantTo_tag_ne t j p hne, hg]⟩

theorem requestFrame_fields (s : State) (t : TagIdx) (b : Binding) :
    (s.requestFrame t b).header.dest = (s.sub b.sub).producer ∧ (s.requestFrame t b).header.tag.toNat = t.val ∧
    (s.requestFrame t b).header.useCount = (s.tag t).useCount ∧
    (s.requestFrame t b).header.ring.toNat = (s.sub b.sub).ring.val ∧ kindClass (s.requestFrame t b).kind = 2 := by
  have htag : (BitVec.ofNat 6 t.val).toNat = t.val := by
    rw [BitVec.toNat_ofNat]
    exact Nat.mod_eq_of_lt t.isLt
  unfold State.requestFrame
  dsimp only
  split <;> exact ⟨rfl, htag, rfl, ringField_toNat _, rfl⟩

/-- The state after the win of a request, before the grants that the freed place allows. -/
def State.sentRequest (s : State) (t : TagIdx) (b : Binding) : State :=
  (({ s with rqt := { s.rqt with queue := s.rqt.queue.drop 1 } } : State).modTag t fun g =>
    { g with bound := some { b with deadline := some s.config.requestTimeout } }).keepaliveAtRequest b

theorem win_request (s : State) (t : TagIdx) (b : Binding) : s.win (.request t b) = runGrants (s.sentRequest t b) := rfl

theorem sentRequest_fields (s : State) (t : TagIdx) (b : Binding) :
    (s.sentRequest t b).tag t = { s.tag t with bound := some { b with deadline := some s.config.requestTimeout } } ∧
    (s.sentRequest t b).liu = s.liu ∧ (s.sentRequest t b).rqt.queue = s.rqt.queue.drop 1 := by
  have htag : (s.sentRequest t b).tag t = _ := (tag_congr (by
      unfold State.sentRequest State.keepaliveAtRequest State.restartKeepalive
      split <;> rfl) t).trans
    (tag_modTag_self ({ s with rqt := { s.rqt with queue := s.rqt.queue.drop 1 } } : State) t fun g =>
      { g with bound := some { b with deadline := some s.config.requestTimeout } })
  refine ⟨htag, ?_⟩
  unfold State.sentRequest State.keepaliveAtRequest State.restartKeepalive
  split <;> exact ⟨rfl, rfl⟩

theorem keepaliveAtRequest_of_consuming {s : State} {b : Binding}
    (h : (!b.request.isJoin && (s.sub b.sub).consuming) = true) :
    ((s.keepaliveAtRequest b).sub b.sub).keepalive = some s.config.keepalive := by
  unfold State.keepaliveAtRequest
  rw [if_pos h, State.restartKeepalive, sub_modSub_self]

/-- A FETCH or PULL of a subscription in ACTIVE or FINISHING restarts its keepalive timer (R103, R114). -/
theorem sentRequest_keepalive {s : State} {b : Binding} (t : TagIdx) (hjoin : ¬ b.request.isJoin = true)
    (hstate : (s.sub b.sub).state = .active ∨ (s.sub b.sub).state = .finishing) :
    ((s.sentRequest t b).sub b.sub).keepalive = some s.config.keepalive := by
  have hconsuming : (!b.request.isJoin && (s.sub b.sub).consuming) = true := by
    rw [Bool.eq_false_iff.2 hjoin]
    exact (consuming_iff _).2 hstate
  exact keepaliveAtRequest_of_consuming hconsuming

theorem requestWinStartsDeadline : Part.RequestWinStartsDeadline := by
  intro others t rest b s hrunning honeOff hannounce hrelease hreplies hqueue hbound hkey
  have ho : s.offer = some (.request t b) := by
    rw [offer_of_running hrunning, honeOff, nextAnnounce_none hannounce, nextRelease_none hrelease, hreplies]
    unfold State.headRequest
    rw [hqueue]
    dsimp only
    rw [hbound]
    rfl
  obtain ⟨hdest, htag, huse, hring, hclass⟩ := requestFrame_fields s t b
  have hexec := execArbitration_win (others := others) ho fun k hk => by
    rw [show s.offerFrame (.request t b) = s.requestFrame t b from rfl, arbitrationKey_toNat, hclass]
    exact hkey k hk
  obtain ⟨hsent, hliu, hrest⟩ := sentRequest_fields s t b
  have hkept := (runGrants_tag (congrArg Tag.bound hsent)).trans hsent
  have hprefix := runGrants_queue (s.sentRequest t b)
  rw [hrest, hqueue] at hprefix
  refine ⟨_, s.requestFrame t b, hexec, ?_, (congrArg Tag.bound hkept).trans rfl,
    (congrArg Tag.useCount hkept).trans rfl, hprefix, fun hjoin hstate => ?_,
    hdest, htag, huse, hring, fun newest hb => ?_, fun q n g hb => ?_, fun q c n blk hb => ?_⟩
  · change { (runGrants (s.sentRequest t b)).liu with transmitting := some (s.requestFrame t b) } = _
    rw [(runGrants_cacheSide _).liu, hliu]
  · exact ((runGrants_moves (s.sentRequest t b)).seekSame b.sub).keepalive.trans (sentRequest_keepalive t hjoin hstate)
  · unfold State.requestFrame
    simp only [hb]
    exact ⟨rfl, rfl, rfl⟩
  · unfold State.requestFrame
    simp only [hb]
    exact ⟨rfl, rfl, rfl, rfl⟩
  · unfold State.requestFrame
    simp only [hb]
    exact ⟨rfl, rfl, rfl, rfl, rfl⟩

/-- Settles O25. -/
theorem replyAndRequestWins : Obligations.ReplyAndRequestWins := ⟨replyWinLeavesQueue, requestWinStartsDeadline⟩

theorem grantOnce_of_first {g : TagIdx} {i : SubIdx} {q : Request} {rest : List Request} {s : State} (hroom : s.rqt.queue.length < 16)
    (hline : s.rqt.retryLine = []) (htag : firstAfter s.rqt.tagPtr (fun u => (s.tag u).bound = none) g)
    (hsub : firstAfter s.rqt.tagGrantPtr (fun j => (s.sub j).claims ≠ []) i) (hclaims : (s.sub i).claims = q :: rest) :
    grantOnce s = some (s.grantTo g i q) := by
  have hnext : s.nextTag = some g := find?_after htag fun _ => Option.isNone_iff_eq_none
  have hclaimant : s.nextClaimant = some i := find?_after hsub fun j => by simp
  unfold grantOnce
  rw [if_pos, hnext, hclaimant]
  · dsimp only
    rw [hclaims]
  · rw [hline]
    exact (Bool.and_true _).trans (decide_eq_true hroom)

theorem tagGrantTakesOldestClaim : Part.TagGrantTakesOldestClaim := by
  intro g i q rest s hroom hline htag hsub hclaims
  have hexec : exec .tagGrant s = .next (s.grantTo g i q) := by
    change Host.Outcome.next ((grantOnce s).getD s) = _
    rw [grantOnce_of_first hroom hline htag hsub hclaims]
    rfl
  refine ⟨_, hexec, ?_, fun j hj => ?_, grantTo_tag_self s g i q, fun u hu => grantTo_tag_ne s i q (Ne.symm hu), rfl, hline, rfl, rfl,
    rfl, rfl, rfl, rfl, rfl, rfl⟩
  · rw [grantTo_sub, if_pos rfl, hclaims]
    rfl
  · rw [grantTo_sub, if_neg (Ne.symm hj)]

theorem retryLineMovesOldest : Part.RetryLineMovesOldest := by
  intro g rest s hline hroom
  change Host.Outcome.next ((moveRetryOnce s).getD s) = _
  unfold moveRetryOnce
  rw [hline]
  dsimp only
  rw [if_pos (show s.requestRoom = true from decide_eq_true hroom)]
  rfl

/-- Settles O26. -/
theorem requestTransmitOrder : Obligations.RequestTransmitOrder := ⟨tagGrantTakesOldestClaim, retryLineMovesOldest⟩

/-! ### Keepalive and poll (R63, R103, R108) -/

theorem keepaliveExpirySetsRelease : Part.KeepaliveExpirySetsRelease := fun _ _ h => if_pos ((Timer.due_iff _).2 h)

theorem probes_iff (b : Sub) : b.probes = true ↔ b.state = .active ∧ b.ap = b.kt ∧ b.fetchesOut = 0 ∧ b.flushPending = false := by
  simp [Sub.probes, and_assoc]

theorem execPollExpiry_of_due {i : SubIdx} {s : State} (h : (s.sub i).poll = some 0) : exec (.pollExpiry i) s =
    if (s.sub i).probes then .next ((((s.restartPoll i).modSub i fun b => { b with fetchesOut := b.fetchesOut + 1 }).claim i
      (.fetch (s.sub i).ap 0 (s.sub i).generation)).evaluate [i]) else .next (s.restartPoll i) := by
  have hprobe : ((s.restartPoll i).sub i).probes = (s.sub i).probes := by rw [restartPoll_sub]; rfl
  have hfields : (((s.restartPoll i).modSub i fun b => { b with fetchesOut := b.fetchesOut + 1 }).sub i) =
      { s.sub i with poll := some s.config.pollInterval, fetchesOut := (s.sub i).fetchesOut + 1 } := by
    rw [sub_modSub_self, restartPoll_sub]
  refine (if_pos ((Timer.due_iff _).2 h)).trans ?_
  dsimp only
  rw [hprobe, hfields]

theorem pollExpiryRestarts : Part.PollExpiryRestarts := by
  intro i s hdue hcase
  rw [execPollExpiry_of_due hdue, if_neg]
  · rfl
  · rw [probes_iff]
    rintro ⟨hstate, hap, hout, hflush⟩
    rcases hcase with h | h | h | h
    · exact h hstate
    · exact h hap
    · exact h hout
    · exact absurd (h.symm.trans hflush) (by decide)

/-- Where AP stands at KT nothing is asked. -/
theorem sizeLimit_of_caught_up {s : State} {i : SubIdx} (h : (s.sub i).ap = (s.sub i).kt) : s.sizeLimit i = 0 := by
  have hroom : seqRoom (s.sub i).ap (s.sub i).kt = 0 := by
    unfold seqRoom
    rw [h, BitVec.sub_self]
    simp
  unfold State.sizeLimit
  dsimp only
  split
  · rw [hroom]
    split <;> simp
  · rfl

/-- A cover of nothing. -/
theorem cover_of_limit {s : State} {i : SubIdx} (h : s.sizeLimit i = 0) : (s.cover i).limit = 0 ∧ (s.cover i).size = 0 := by
  have hgroups : s.newGroups i (s.sizeLimit i) = [] := by rw [h]; rfl
  unfold State.cover
  dsimp only
  rw [hgroups, h, List.drop_nil]
  exact ⟨rfl, rfl⟩

/-- Where nothing may be asked, an evaluation only clears line wait. -/
theorem evaluateOnce_of_limit {s : State} {i : SubIdx} (h : (s.modSub i fun b => { b with lineWait := false }).sizeLimit i = 0) :
    s.evaluateOnce i = { state := s.modSub i fun b => { b with lineWait := false }, issued := none } := by
  obtain ⟨hlimit, hsize⟩ := cover_of_limit h
  have hnone : (s.modSub i fun b => { b with lineWait := false }).enough i 0 = false := rfl
  unfold State.evaluateOnce
  dsimp only
  rw [hlimit, hsize, hnone]
  split <;> rfl

theorem evaluations_of_limit {s : State} {i : SubIdx}
    (h : (s.modSub i fun b => { b with lineWait := false }).sizeLimit i = 0) (n : Nat) :
    evaluations (n + 1) [i] s = s.modSub i fun b => { b with lineWait := false } := by
  change (match s.evaluateOnce i with
    | { state := t, issued := none } => evaluations n [] t
    | { state := t, issued := some c } => evaluations n (i :: ([] ++ c.borrowed.toList)) t) = _
  rw [evaluateOnce_of_limit h]
  cases n <;> rfl

theorem evaluate_of_caught_up {s : State} {i : SubIdx} (h : (s.sub i).ap = (s.sub i).kt) :
    s.evaluate [i] = s.modSub i fun b => { b with lineWait := false } :=
  evaluations_of_limit (sizeLimit_of_caught_up (by rw [sub_modSub_self]; exact h)) 199

/-- The state with the probe claimed, before grants. -/
def State.probing (s : State) (i : SubIdx) : State :=
  ((s.restartPoll i).modSub i fun b => { b with fetchesOut := b.fetchesOut + 1 }).modSub i fun b =>
    { b with claims := b.claims ++ [.fetch (s.sub i).ap 0 (s.sub i).generation] }

theorem pollProbeIssued : Part.PollProbeIssued := by
  intro i s hdue hstate hap hout hflush hclaims
  have hexec := execPollExpiry_of_due hdue
  rw [if_pos ((probes_iff _).2 ⟨hstate, hap, hout, hflush⟩)] at hexec
  have hsub : (s.probing i).sub i = { s.sub i with
      poll := some s.config.pollInterval, fetchesOut := 1, claims := [.fetch (s.sub i).ap 0 (s.sub i).generation] } := by
    unfold State.probing
    rw [sub_modSub_self, sub_modSub_self, restartPoll_sub, hout, hclaims]
    rfl
  have hgranted := runGrants_sub (s.probing i) i
  rw [hsub] at hgranted
  have hdone : (runGrants (s.probing i)).evaluate [i] = (runGrants (s.probing i)).modSub i fun b => { b with lineWait := false } :=
    evaluate_of_caught_up (by rw [hgranted]; exact hap)
  have hlast : ((runGrants (s.probing i)).modSub i fun b => { b with lineWait := false }).sub i =
      { (runGrants (s.probing i)).sub i with lineWait := false } := sub_modSub_self _ _ _
  have hside := runGrants_cacheSide (s.probing i)
  refine ⟨_, hexec.trans (congrArg _ hdone), ?_, ?_, ?_, runGrants_dpc (s.probing i), ?_, hside.lpc, hside.liu, hside.pub,
    hside.pdu, hside.memory⟩
  · rw [hlast, hgranted]
  · rw [hlast, hgranted]
  · rw [hlast, hgranted]
  · rw [hlast]
    exact runGrants_claim (s := s.probing i) (by rw [hsub])

theorem keepalivePollNotRunOut : Part.KeepalivePollNotRunOut := fun _ _ =>
  ⟨fun h => if_neg (mt (Timer.due_iff _).1 h), fun h => if_neg (mt (Timer.due_iff _).1 h)⟩

/-- Settles O28. -/
theorem keepaliveAndPoll : Obligations.KeepaliveAndPoll :=
  ⟨keepaliveExpirySetsRelease, pollExpiryRestarts, pollProbeIssued, keepalivePollNotRunOut⟩

end Sys2Proof.Machine
end

section
/-! PROOFS. The deadline of a request (R115 to R117, R120). -/
namespace Sys2Proof.Machine

theorem execDeadlineExpiry_of_due {g : TagIdx} {b : Binding} {s : State} (hbound : (s.tag g).bound = some b)
    (hdue : b.deadline = some 0) : exec (.deadlineExpiry g) s = .next (s.deadlineRunsOut g b) := by
  change execDeadlineExpiry g s = _
  unfold execDeadlineExpiry
  rw [hbound]
  exact if_pos ((Timer.due_iff _).2 hdue)

theorem deadlineNotRunOut : Part.DeadlineNotRunOut := by
  intro g s h
  change execDeadlineExpiry g s = _
  unfold execDeadlineExpiry
  split
  · rfl
  · rename_i b hb
    exact if_neg (mt (Timer.due_iff _).1 (h b hb))

/-! ### A retry, or the end (R115, R117) -/

theorem retryRoom_iff (s : State) : (s.requestRoom && s.rqt.retryLine.isEmpty) = true ↔
    s.rqt.queue.length < 16 ∧ s.rqt.retryLine = [] := by
  rw [Bool.and_eq_true, List.isEmpty_iff]
  exact and_congr_left fun _ => decide_eq_true_iff

theorem deadlineRetriesOrFails : Part.DeadlineRetriesOrFails := by
  intro g b s hbound hdue hstate
  rw [execDeadlineExpiry_of_due hbound hdue]
  have hleaving : ¬ (s.sub b.sub).state = .leaving := by
    rcases hstate with h | h | h <;> rw [h] <;> decide
  refine ⟨fun hattempts => ?_, fun hattempts => ?_⟩
  · rw [show s.deadlineRunsOut g b = s.retry g b from (if_neg hleaving).trans (if_pos hattempts)]
    exact ⟨fun hroom => congrArg _ (if_pos ((retryRoom_iff s).2 hroom)),
      fun hroom => congrArg _ (if_neg (mt (retryRoom_iff s).1 hroom))⟩
  · rw [show s.deadlineRunsOut g b = (s.freeTag g).endNow b.sub .silent from
      (if_neg hleaving).trans (if_neg (Nat.not_le.2 hattempts))]
    have hended := endNow_sub (s.freeTag g) b.sub .silent
    exact ⟨_, rfl, hended.state, hended.reason, hended.dp, hended.rm, hended.undelivered⟩

/-! ### The abandonment in LEAVING (R116) -/

theorem endFetch_sub (s : State) (i : SubIdx) :
    (s.endFetch i).sub i = { s.sub i with fetchesOut := (s.sub i).fetchesOut - 1 } := sub_modSub_self _ _ _

theorem endFetch_sub_ne (s : State) {i j : SubIdx} (h : j ≠ i) : (s.endFetch i).sub j = s.sub j := sub_modSub_ne _ _ (Ne.symm h)

theorem abandonPull_steady (s : State) (i : SubIdx) (q : Seq) :
    ((s.abandonPull i q).sub i).state = (s.sub i).state ∧ ((s.abandonPull i q).sub i).claims = (s.sub i).claims := by
  rw [abandonPull_eq]
  split
  · rw [trimLines_sub, abandoned_sub]
    exact ⟨rfl, rfl⟩
  · exact ⟨rfl, rfl⟩

/-- What the end of a request in LEAVING leaves alone, whatever the request. -/
theorem abandonRequest_rest (s : State) (i : SubIdx) (q : Request) :
    (s.abandonRequest i q).rqt = s.rqt ∧ (s.abandonRequest i q).liu = s.liu ∧ (s.abandonRequest i q).pub = s.pub ∧
    (s.abandonRequest i q).memory = s.memory ∧ (∀ j, j ≠ i → (s.abandonRequest i q).sub j = s.sub j) ∧
    ((s.abandonRequest i q).sub i).state = (s.sub i).state ∧ ((s.abandonRequest i q).sub i).claims = (s.sub i).claims := by
  cases q with
  | join newest => exact ⟨rfl, rfl, rfl, rfl, fun _ _ => rfl, rfl, rfl⟩
  | fetch q n gen =>
    have hside := flushTest_flushSide (s.endFetch i) i
    obtain ⟨owed, all, pending, hrecord⟩ := hside.record
    refine ⟨hside.rqt, hside.liu, hside.pub, hside.memory, fun j hj => (hside.others j hj).trans (endFetch_sub_ne s hj), ?_, ?_⟩
    · exact (congrArg Sub.state hrecord).trans ((congrArg Sub.state (endFetch_sub s i)).trans rfl)
    · exact (congrArg Sub.claims hrecord).trans ((congrArg Sub.claims (endFetch_sub s i)).trans rfl)
  | pull q c n blk =>
    obtain ⟨-, hliu, hpub, hrqt, hmemory⟩ := abandonPull_rest (s.endPull i) i q
    refine ⟨hrqt, hliu, hpub, hmemory, fun j hj => (abandonPull_sub_ne _ q hj).trans (endPull_sub_ne s hj), ?_, ?_⟩
    · exact (abandonPull_steady (s.endPull i) i q).1.trans ((congrArg Sub.state (endPull_sub s i)).trans rfl)
    · exact (abandonPull_steady (s.endPull i) i q).2.trans ((congrArg Sub.claims (endPull_sub s i)).trans rfl)

/-! ### Requests of a subscription that asks no more -/

/-- Subscription `i` is leaving or has ended, no claim of it waits, and tag `g` is not bound to it. -/
structure Barred (i : SubIdx) (g : TagIdx) (s : State) : Prop where
  state  : (s.sub i).state = .leaving ∨ (s.sub i).state = .ended
  claims : (s.sub i).claims = []
  tag    : ∀ x, (s.tag g).bound = some x → x.sub ≠ i

theorem SubMove.barred {k : Kind} {b c : Sub} (h : SubMove k b c) (hstate : b.state = .leaving ∨ b.state = .ended)
    (hclaims : b.claims = []) : (c.state = .leaving ∨ c.state = .ended) ∧ c.claims = [] := by
  have hev : b.evaluated = false := by
    rcases hstate with e | e <;> simp [Sub.evaluated, e]
  refine ⟨?_, ?_⟩
  · rcases h.state with e | ⟨-, -, e, -⟩ | ⟨-, -, e, -⟩
    · rw [e]
      exact hstate
    · exact .inr e
    · exact .inr e
  · cases h with
    | same => exact hclaims
    | seek h =>
      cases h with
      | claim q h => exact absurd (hev.symm.trans h) Bool.false_ne_true
      | _ => exact hclaims
    | grant b q rest h => exact absurd (hclaims.symm.trans h) (List.cons_ne_nil q rest).symm
    | supply _ h => cases h <;> exact hclaims
    | complete => rfl
    | deliver => exact hclaims
    | depart => exact hclaims

/-- A move binds a tag only to a subscription that has a claim waiting. -/
theorem Move.bound {k : Kind} {s t : State} (h : Move k s t) {x : TagIdx} {b : Binding} (hb : (t.tag x).bound = some b) :
    (s.tag x).bound = some b ∨ (s.sub b.sub).claims ≠ [] := by
  cases h with
  | grant s g j q rest hroom hfree hq =>
    by_cases hx : g = x
    · subst hx
      rw [grantTo_tag_self] at hb
      obtain rfl := Option.some.inj hb
      exact .inr (by rw [hq]; exact List.cons_ne_nil q rest)
    · rw [grantTo_tag_ne s j q hx] at hb
      exact .inl hb
  | complete s j =>
    rw [tag_congr (completeFinishing_rqt s j)] at hb
    exact .inl (tag_cancelRequests hb)
  | deliver s j h =>
    rw [writeRecord_eq] at hb
    exact .inl hb
  | depart s j =>
    rw [tag_congr (completeLeave_rqt s j)] at hb
    exact .inl hb
  | _ => exact .inl hb

theorem Moves.barred {K : List Kind} {s t : State} {i : SubIdx} {g : TagIdx} (h : Moves K s t) (hs : Barred i g s) :
    Barred i g t :=
  h.keeps (inv := Barred i g) (fun k _ s t hm hs => by
    obtain ⟨hstate, hclaims⟩ := (hm.record i).barred hs.state hs.claims
    refine ⟨hstate, hclaims, fun x hx => ?_⟩
    rcases hm.bound hx with hold | hclaim
    · exact hs.tag x hold
    · rintro rfl
      exact hclaim hs.claims) hs

theorem freeTag_queue (s : State) (g : TagIdx) : g ∉ (s.freeTag g).rqt.queue ∧ g ∉ (s.freeTag g).rqt.retryLine := by
  have hnot (l : List TagIdx) : g ∉ l.filter (· ≠ g) := fun h => by
    have := (List.mem_filter.1 h).2
    simp at this
  exact ⟨hnot _, hnot _⟩

theorem abandonRequest_fetch (s : State) (i : SubIdx) (q : Seq) (n : Nat) (gen : Byte) :
    let u := s.abandonRequest i (.fetch q n gen)
    (u.sub i).fetchesOut = (s.sub i).fetchesOut - 1 ∧ (u.sub i).pp = (s.sub i).pp ∧ (u.sub i).fp = (s.sub i).fp ∧
      (u.sub i).ap = (s.sub i).ap ∧ (u.sub i).dp = (s.sub i).dp ∧ u.pdu = s.pdu := by
  have hside := flushTest_flushSide (s.endFetch i) i
  obtain ⟨owed, all, pending, hrecord⟩ := hside.record
  rw [endFetch_sub] at hrecord
  change (((s.endFetch i).flushTest i).sub i).fetchesOut = _ ∧ (((s.endFetch i).flushTest i).sub i).pp = _ ∧
    (((s.endFetch i).flushTest i).sub i).fp = _ ∧ (((s.endFetch i).flushTest i).sub i).ap = _ ∧
    (((s.endFetch i).flushTest i).sub i).dp = _ ∧ ((s.endFetch i).flushTest i).pdu = _
  rw [hrecord]
  exact ⟨rfl, rfl, rfl, rfl, rfl, hside.pdu⟩

theorem deadlineInLeavingAbandons : Part.DeadlineInLeavingAbandons := by
  intro g b s hbound hdue hstate
  have hexec := execDeadlineExpiry_of_due hbound hdue
  rw [show s.deadlineRunsOut g b = (settle ((s.freeTag g).abandonRequest b.sub b.request)).leaveTest b.sub from if_pos hstate]
    at hexec
  obtain ⟨hrqt, hliu, hpub, hmemory, hothers, hkept, hclaims⟩ := abandonRequest_rest (s.freeTag g) b.sub b.request
  obtain ⟨hqueue, hline⟩ := freeTag_queue s g
  have hfree : ((s.freeTag g).abandonRequest b.sub b.request).tag g = { s.tag g with bound := none } := by
    rw [tag_congr hrqt]
    exact freeTag_tag_self s g
  have htags (x : TagIdx) (hx : x ≠ g) : ((s.freeTag g).abandonRequest b.sub b.request).tag x = s.tag x := by
    rw [tag_congr hrqt]
    exact freeTag_tag_ne s hx
  have hmoves := ((settle_moves ((s.freeTag g).abandonRequest b.sub b.request)).mono (L := Kind.all) (by decide)).trans
    (leaveTest_moves _ b.sub)
  refine ⟨_, _, hexec, rfl, hfree, htags, by rw [hrqt]; exact hqueue, by rw [hrqt]; exact hline, hothers, hliu, hpub, hmemory,
    fun newest hq => ?_, fun q n gen hq => ?_, fun q c n blk hq => ?_, fun hnone => ?_, fun hnone honly => ?_, ?_, ?_⟩
  · rw [hq]
    exact ⟨rfl, rfl, rfl, rfl⟩
  · obtain ⟨hout, hpp, hfp, hap, hdp, hpdu⟩ := abandonRequest_fetch (s.freeTag g) b.sub q n gen
    rw [hq] at hkept ⊢
    exact ⟨hout, hpp, hfp, hap, hdp, hkept.trans hstate, hpdu⟩
  · rw [hq]
    exact ⟨pullAbandoned_of_endPull (v := s.freeTag g) q rfl rfl rfl, (abandonPull_rest _ _ _).1⟩
  · have hbarred : Barred b.sub g ((s.freeTag g).abandonRequest b.sub b.request) :=
      ⟨.inl (hkept.trans hstate), hclaims.trans hnone, fun x hx => by rw [hfree] at hx; exact absurd hx (by simp)⟩
    exact (hmoves.barred hbarred).tag
  · exact leave_completes (hkept.trans hstate) ⟨hnone, honly⟩ hclaims (congrArg Tag.bound hfree) htags
  · exact hmoves.consumer.pub.trans hpub
  · rw [hmoves.consumer.liu]
    dsimp only
    rw [hliu]
    rfl

/-- Settles O27. -/
theorem deadlineOutcomes : Obligations.DeadlineOutcomes :=
  ⟨deadlineRetriesOrFails, deadlineInLeavingAbandons, deadlineNotRunOut⟩

end Sys2Proof.Machine
end

section
/-! PROOFS. The turns of the pull engine (R88, R89, R91), the block grant round (R90) and the line wait round (R66). -/
namespace Sys2Proof.Machine

/-! ### What a delivery looks at (R96) -/

/-- The setting of an entry touches no other subscription's entries. -/
theorem entryAt_setEntry_other (s : State) {i j : SubIdx} (q p : Seq) (e : Entry) (h : j ≠ i) :
    (s.setEntry i q e).entryAt j p = s.entryAt j p := by
  have hset := groupAt_setEntry s j i q (groupOf p) e
  cases hgroup : s.groupAt j (groupOf p) with
  | none =>
    rw [hgroup] at hset
    rw [entryAt_of_no_group hset, entryAt_of_no_group hgroup]
  | some l =>
    obtain ⟨es, rfl⟩ := groupAt_eq_some hgroup
    rw [hgroup, Option.map_some, Line.setEntry, if_neg (by simp [h])] at hset
    rw [entryAt_of_groupAt hset, entryAt_of_groupAt hgroup]

/-- A subscription of which neither the state, DP, RM nor the entry at DP changes is deliverable as before. -/
theorem deliverable_congr {s t : State} {i : SubIdx} (hstate : (t.sub i).state = (s.sub i).state)
    (hdp : (t.sub i).dp = (s.sub i).dp) (hrm : (t.sub i).rm = (s.sub i).rm)
    (hentry : t.entryAt i (s.sub i).dp = s.entryAt i (s.sub i).dp) : t.deliverable i = s.deliverable i := by
  unfold State.deliverable
  dsimp only
  rw [hstate, hdp, hrm, hentry]

/-- A descriptor that is not COMPLETE is not delivered. -/
theorem deliverable_of_not_complete {s : State} {i : SubIdx} (h : ∀ im, s.entryAt i (s.sub i).dp ≠ .complete im) :
    s.deliverable i = false := by
  unfold State.deliverable
  dsimp only
  split
  · rename_i im hentry
    exact absurd hentry (h im)
  · rw [Bool.and_false, Bool.false_and]

/-- The start of a pull of a descriptor of length 1 or more makes no subscription deliverable. -/
theorem not_deliverable_of_start {s t : State} {i : SubIdx} {q : Seq} {im : Image} (hnone : ∀ j, s.deliverable j = false)
    (hheld : s.entryAt i q ≠ .empty) (hlines : t.dpc.lines = (s.setEntry i q (.pulling im)).dpc.lines)
    (hothers : ∀ j, j ≠ i → t.sub j = s.sub j)
    (hsub : (t.sub i).state = (s.sub i).state ∧ (t.sub i).dp = (s.sub i).dp ∧ (t.sub i).rm = (s.sub i).rm) (j : SubIdx) :
    t.deliverable j = false := by
  by_cases hj : j = i
  · subst hj
    obtain ⟨hstate, hdp, hrm⟩ := hsub
    by_cases hq : (s.sub j).dp = q
    · refine deliverable_of_not_complete fun im' hentry => ?_
      rw [hdp, hq, entryAt_congr hlines, entryAt_setEntry_self _ hheld] at hentry
      exact Entry.noConfusion hentry
    · exact (deliverable_congr hstate hdp hrm (by rw [entryAt_congr hlines, entryAt_setEntry_ne _ hq])).trans (hnone j)
  · exact (deliverable_congr (by rw [hothers j hj]) (by rw [hothers j hj]) (by rw [hothers j hj])
      (by rw [entryAt_congr hlines, entryAt_setEntry_other s q _ _ hj])).trans (hnone j)

/-! ### A turn (R88) -/

theorem modSub_congr {s : State} {i : SubIdx} {f g : Sub → Sub} (h : f (s.sub i) = g (s.sub i)) : s.modSub i f = s.modSub i g := by
  unfold State.modSub
  rw [h]


theorem ready_iff (b : Sub) : b.ready = true ↔ readyForTurn b := by
  unfold Sub.ready Sub.mayStart readyForTurn
  rw [Bool.and_eq_true, Bool.and_eq_true, consuming_iff, decide_eq_true_eq, and_assoc]
  refine and_congr_right fun _ => and_congr_right fun _ => ?_
  cases hissue : b.issue with
  | none => simp [and_assoc, imp_iff_not_or]
  | some q => simp

theorem nextTurn_of_first {s : State} {i : SubIdx} (h : firstAfter s.pdu.pullGrantPtr (fun j => readyForTurn (s.sub j)) i) :
    s.nextTurn = some i := find?_after h fun j => ready_iff (s.sub j)

theorem execPullStart_of_first {s : State} {i : SubIdx}
    (h : firstAfter s.pdu.pullGrantPtr (fun j => readyForTurn (s.sub j)) i) (hissue : (s.sub i).issue = none) :
    exec .pullStart s = .next ((s.takeTurn i).pullStartTurn i) := by
  change execPullStart s = _
  unfold execPullStart
  rw [nextTurn_of_first h]
  exact if_pos (by rw [hissue]; rfl)

theorem descriptorAnswer_of_held {s : State} {i : SubIdx} {im : Image}
    (hstate : (s.sub i).state = .active ∨ (s.sub i).state = .finishing) (hheld : s.entryAt i (s.sub i).pp = .held im)
    (hbefore : seqBefore (s.sub i).pp (s.sub i).fp = true) : s.descriptorAnswer i = .hit im := by
  unfold State.descriptorAnswer
  dsimp only
  rw [if_pos hstate, hheld]
  exact if_pos hbefore

theorem length_ne_zero {im : Image} (h : 1 ≤ im.length.toNat) : im.length ≠ 0 := by
  intro h0
  rw [h0] at h
  exact absurd h (by decide)

theorem pullStartTakesBlocks : Part.PullStartTakesBlocks := by
  intro i im s hfirst hissue hheld hseq hbefore hlen hnone c u
  have hexec := execPullStart_of_first hfirst hissue
  obtain ⟨hstate, -⟩ := hfirst.1
  have hanswer : u.descriptorAnswer i = .hit im := descriptorAnswer_of_held (s := u) hstate hheld hbefore
  have hturn : u.pullStartTurn i = deliverAll (u.startOrWait i im) := by
    unfold State.pullStartTurn
    rw [hanswer]
  rw [hturn] at hexec
  refine ⟨fun hroom => ?_, fun hroom => ?_⟩
  · have hstart : u.startOrWait i im = ((u.allocate i im.seq c).setEntry i im.seq (.pulling im)).modSub i fun b =>
        { b with pp := b.pp + 1, issue := some (im.seq, 0),
                 pulls := b.pulls ++ [{ image := im, blocks := s.allocated i im.seq c, issued := 0, arrived := [] }] } := by
      unfold State.startOrWait
      rw [if_pos (show chunkCount im.length.toNat ≤ u.freeBlocks from hroom), startPull_eq, if_neg (length_ne_zero hlen)]
      exact modSub_congr (by unfold Sub.started; rw [if_neg (length_ne_zero hlen)]; rfl)
    rw [hstart, deliverAll_stays] at hexec
    · exact hexec
    · refine not_deliverable_of_start (s := s) (i := i) (q := im.seq) (im := im) hnone (by rw [hseq, hheld]; exact Entry.noConfusion)
        rfl (fun j hj => sub_modSub_ne _ _ (Ne.symm hj)) ?_
      rw [sub_modSub_self]
      exact ⟨rfl, rfl, rfl⟩
  · have hwait : u.startOrWait i im = u.modSub i fun b => { b with blockWait := some (im.seq, c) } :=
      if_neg (Nat.not_le.2 hroom)
    rw [hwait, deliverAll_stays] at hexec
    · exact hexec
    · intro j
      refine (deliverable_congr (s := s) (t := u.modSub i fun b => { b with blockWait := some (im.seq, c) })
        ?_ ?_ ?_ rfl).trans (hnone j)
      all_goals
        rw [sub_modSub]
        split <;> rfl

theorem modSub_of_eq {s : State} {i : SubIdx} {f : Sub → Sub} (h : f (s.sub i) = s.sub i) : s.modSub i f = s := by
  show { s with subs := s.subs.set i (f (s.sub i)) } = s
  rw [h]
  simp [State.sub, Vector.get_eq_getElem]

theorem pullStartDefers : Part.PullStartDefers := by
  intro i s hfirst hissue hfp
  have hexec := execPullStart_of_first hfirst hissue
  obtain ⟨hstate, -⟩ := hfirst.1
  have hnot : seqBefore (s.sub i).pp (s.sub i).fp = false := by
    rw [hfp, Bool.eq_false_iff, ne_eq, seqBefore_iff, BitVec.sub_self]
    simp
  have hanswer : (s.takeTurn i).descriptorAnswer i = if seqBefore (s.sub i).fp (s.sub i).kt then .defer else .caughtUp := by
    unfold State.descriptorAnswer
    dsimp only
    rw [if_pos (show ((s.takeTurn i).sub i).state = .active ∨ ((s.takeTurn i).sub i).state = .finishing from hstate)]
    split
    · exact if_neg (by rw [show seqBefore ((s.takeTurn i).sub i).pp ((s.takeTurn i).sub i).fp = false from hnot]; decide)
    · rfl
  have hturn : (s.takeTurn i).pullStartTurn i = (s.takeTurn i).noteAnswer i := by
    unfold State.pullStartTurn
    rw [hanswer]
    split
    · rename_i im h
      split at h <;> exact Answer.noConfusion h
    · rfl
  rw [hexec, hturn]
  refine congrArg _ ?_
  unfold State.noteAnswer
  rw [hanswer]
  have hset (w : Bool) (hw : w = ((s.sub i).pullWait || seqBefore (s.sub i).fp (s.sub i).kt || decide ((s.sub i).state = .active))) :
      ((s.takeTurn i).modSub i fun b => { b with pullWait := w }) = (s.takeTurn i).modSub i fun b => { b with
        pullWait := b.pullWait || seqBefore b.fp b.kt || decide (b.state = .active) } := by
    subst hw
    exact modSub_congr rfl
  by_cases hmore : seqBefore (s.sub i).fp (s.sub i).kt = true
  · rw [if_pos hmore]
    exact hset true (by rw [hmore, Bool.or_true, Bool.true_or])
  · rw [if_neg hmore]
    rw [Bool.not_eq_true] at hmore
    dsimp only
    split
    · rename_i hactive
      exact hset true (by rw [decide_eq_true (show (s.sub i).state = .active from hactive), Bool.or_true])
    · rename_i hactive
      rw [← hset (s.sub i).pullWait (by
        rw [hmore, decide_eq_false (show ¬ (s.sub i).state = .active from hactive), Bool.or_false, Bool.or_false])]
      exact (modSub_of_eq (s := s.takeTurn i) rfl).symm

/-- Settles O48. -/
theorem pullStartTurn : Obligations.PullStartTurn := ⟨pullStartTakesBlocks, pullStartDefers⟩

/-! ### The issue of a chunk (R91) -/

theorem pullRecord_of_split {b : Sub} {q : Seq} {p : PullRecord} {earlier later : List PullRecord}
    (hpulls : b.pulls = earlier ++ p :: later) (hseq : p.image.seq = q) (hothers : ∀ x ∈ earlier ++ later, x.image.seq ≠ q) :
    b.pullRecord q = some p := by
  have hnone : earlier.find? (fun x => x.image.seq == q) = none :=
    List.find?_eq_none.2 fun x hx => by simpa using hothers x (List.mem_append_left _ hx)
  unfold Sub.pullRecord
  rw [hpulls, List.find?_append, hnone, Option.none_or]
  exact List.find?_cons_of_pos (beq_iff_eq.2 hseq)

/-- The records after the issue of a chunk: only that of the descriptor changes. -/
theorem issueChunk_pulls {b : Sub} {q : Seq} {k : Nat} {p : PullRecord} {earlier later : List PullRecord}
    (hpulls : b.pulls = earlier ++ p :: later) (hseq : p.image.seq = q) (hothers : ∀ x ∈ earlier ++ later, x.image.seq ≠ q) :
    (b.issueChunk q k).pulls = earlier ++ { p with issued := k + 1 } :: later := by
  have hkeep (l : List PullRecord) (hl : ∀ x ∈ l, x.image.seq ≠ q) :
      (l.map fun x => if x.image.seq == q then { x with issued := k + 1 } else x) = l :=
    (List.map_congr_left fun x hx => if_neg (by simpa using hl x hx)).trans (List.map_id l)
  change (b.pulls.map fun x => if x.image.seq == q then { x with issued := k + 1 } else x) = _
  rw [hpulls, List.map_append, List.map_cons, hkeep earlier fun x hx => hothers x (List.mem_append_left _ hx),
    hkeep later fun x hx => hothers x (List.mem_append_right _ hx), if_pos (beq_iff_eq.2 hseq)]

/-- Every chunk of the descriptor is issued. -/
def PullRecord.exhausted (p : PullRecord) : Prop := p.issued = chunkCount p.image.length.toNat

theorem nextIssue_none {l : List PullRecord} (h : ∀ x ∈ l, x.exhausted) : nextIssue l = none := by
  unfold nextIssue
  rw [List.find?_eq_none.2 fun x hx => by rw [decide_eq_true_eq, h x hx]; exact Nat.lt_irrefl _]
  rfl

/-- The issue position is the first record with a chunk unissued. -/
theorem nextIssue_of_split {earlier later : List PullRecord} {x : PullRecord} (h : ∀ y ∈ earlier, y.exhausted)
    (hx : x.issued < chunkCount x.image.length.toNat) : nextIssue (earlier ++ x :: later) = some (x.image.seq, x.issued) := by
  unfold nextIssue
  rw [List.find?_append, List.find?_eq_none.2 fun y hy => by rw [decide_eq_true_eq, h y hy]; exact Nat.lt_irrefl _,
    Option.none_or, List.find?_cons_of_pos
      (p := fun y : PullRecord => decide (y.issued < chunkCount y.image.length.toNat)) (decide_eq_true hx)]
  rfl

theorem execChunkIssue_of_first {s : State} {i : SubIdx} {q : Seq} {k : Nat}
    (h : firstAfter s.pdu.pullGrantPtr (fun j => readyForTurn (s.sub j)) i) (hissue : (s.sub i).issue = some (q, k)) :
    exec .chunkIssue s = .next ((s.takeTurn i).chunkTurn i q k) := by
  change execChunkIssue s = _
  unfold execChunkIssue
  rw [nextTurn_of_first h]
  dsimp only
  rw [hissue]

/-- The state with the PULL of a chunk claimed, before grants. -/
def State.pulling (s : State) (i : SubIdx) (q : Seq) (k : Nat) (request : Request) : State :=
  (s.modSub i fun b => b.issueChunk q k).modSub i fun b => { b with claims := b.claims ++ [request] }

theorem pulling_sub (s : State) (i : SubIdx) (q : Seq) (k : Nat) (request : Request) : (s.pulling i q k request).sub i =
    { (s.sub i).issueChunk q k with claims := (s.sub i).claims ++ [request] } := by
  unfold State.pulling
  rw [sub_modSub_self, sub_modSub_self]
  rfl

/-- Settles O49. -/
theorem chunkIssueClaimsPull : Obligations.ChunkIssueClaimsPull := by
  intro i q k p earlier later s hfirst hissue hpulls hseq hothers hearlier hk hlt hclaims n request
  have hrecord := pullRecord_of_split hpulls hseq hothers
  have hexec : exec .chunkIssue s = .next (runGrants ((s.takeTurn i).pulling i q k request)) := by
    rw [execChunkIssue_of_first hfirst hissue]
    unfold State.chunkTurn
    rw [show ((s.takeTurn i).sub i).pullRecord q = some p from hrecord]
    rfl
  have hsub := pulling_sub (s.takeTurn i) i q k request
  have hgranted := runGrants_sub ((s.takeTurn i).pulling i q k request) i
  have hside := runGrants_cacheSide ((s.takeTurn i).pulling i q k request)
  have hafter := issueChunk_pulls (b := s.sub i) (k := k) hpulls hseq hothers
  have hsplit : earlier ++ { p with issued := k + 1 } :: later = (earlier ++ [{ p with issued := k + 1 }]) ++ later := by simp
  have hissued : ((runGrants ((s.takeTurn i).pulling i q k request)).sub i).issue = nextIssue (earlier ++
      { p with issued := k + 1 } :: later) := by
    rw [hgranted, hsub, ← hafter]
    rfl
  refine ⟨_, hexec, hside.pdu, ?_, ?_, fun hmore => ?_, fun hlast => ⟨fun hdone => ?_, fun l1 l2 x hl hl1 hx => ?_⟩, ?_,
    fun j hj => ?_, hside.lpc, hside.liu, hside.pub, runGrants_dpc _, hside.memory⟩
  · rw [hgranted, hsub]
    rfl
  · rw [hgranted, hsub]
    exact hafter
  · rw [hissued, nextIssue_of_split hearlier (x := { p with issued := k + 1 }) hmore, ← hseq]
  · rw [hissued]
    refine nextIssue_none fun x hx => ?_
    rcases List.mem_append.1 hx with hx | hx
    · exact hearlier x hx
    · rcases List.mem_cons.1 hx with rfl | hx
      · exact hlast
      · exact hdone x hx
  · rw [hissued, hsplit, hl, ← List.append_assoc, nextIssue_of_split (fun y hy => ?_) hx]
    rcases List.mem_append.1 hy with hy | hy
    · rcases List.mem_append.1 hy with hy | hy
      · exact hearlier y hy
      · obtain rfl := List.mem_singleton.1 hy
        exact hlast
    · exact hl1 y hy
  · exact runGrants_claim (by rw [hsub]; exact congrArg (· ++ [request]) hclaims)
  · rw [runGrants_sub]
    unfold State.pulling
    rw [sub_modSub_ne _ _ (Ne.symm hj), sub_modSub_ne _ _ (Ne.symm hj)]
    rfl

/-! ### The block grant round (R90) -/

theorem after_nodup {n : Nat} (p : Fin n) : (after p).Nodup :=
  (after_pairwise p).imp fun h => by rintro rfl; exact Nat.lt_irrefl _ h

/-- A round in which one index alone has an effect. -/
theorem foldl_of_single {α : Type} {f : State → α → State} {s : State} {i : α} : ∀ {l : List α}, l.Nodup → i ∈ l →
    (∀ j, j ≠ i → f s j = s) → (∀ j, j ≠ i → f (f s i) j = f s i) → l.foldl f s = f s i
  | j :: l, hnodup, hi, hbefore, hafter => by
    obtain ⟨hj, hl⟩ := List.nodup_cons.1 hnodup
    rw [List.foldl_cons]
    rcases List.mem_cons.1 hi with rfl | hi
    · exact foldl_stays fun x hx => hafter x fun h => hj (h ▸ hx)
    · rw [hbefore j fun h => hj (h ▸ hi)]
      exact foldl_of_single hl hi hbefore hafter

/-- An allocation takes as many blocks as it needs, where so many are FREE. -/
theorem allocated_length (i : SubIdx) (q : Seq) : ∀ (bs : List Block) (need index number : Nat),
    need ≤ (bs.filter (· == .free)).length → (takeBlocks i q need index number bs).2.length = need
  | [], need, index, number, h => by
    obtain rfl := Nat.le_zero.1 h
    rfl
  | b :: bs, 0, index, number, _ => by cases b <;> rfl
  | .free :: bs, need + 1, index, number, h => by
    have := allocated_length i q bs need (index + 1) (number + 1) (by simpa using h)
    simp [takeBlocks, this]
  | .filling o r k :: bs, need + 1, index, number, h => by
    have := allocated_length i q bs (need + 1) index (number + 1) (by simpa using h)
    simp [takeBlocks, this]
  | .delivered o r k :: bs, need + 1, index, number, h => by
    have := allocated_length i q bs (need + 1) index (number + 1) (by simpa using h)
    simp [takeBlocks, this]

theorem blockGrantPassesOver : Part.BlockGrantPassesOver := by
  intro s hwait hnone
  change Host.Outcome.next (deliverAll (Machine.blockGrantRound s)) = _
  rw [blockGrantRound_stays hwait, deliverAll_stays hnone]

theorem blockGrantTurn_of_waiting {s : State} {i : SubIdx} {im : Image} {c : Nat} (hwait : (s.sub i).blockWait = some (im.seq, c))
    (hroom : c ≤ s.freeBlocks) (hheld : s.entryAt i im.seq = .held im)
    (hseq : im.seq = (s.sub i).pp) : blockGrantTurn s i = (s.grantBlocks i im.seq c).startGranted i im (s.allocated i im.seq c) := by
  unfold blockGrantTurn
  rw [hwait]
  dsimp only
  rw [if_pos hroom]
  have hentry : (s.grantBlocks i im.seq c).entryAt i im.seq = .held im := hheld
  have hpp : ((s.grantBlocks i im.seq c).sub i).pp = (s.sub i).pp :=
    (congrArg Sub.pp (sub_modSub_self (s.allocate i im.seq c) i fun b => { b with blockWait := none })).trans rfl
  unfold State.presentStart
  rw [hentry, hpp, decide_eq_true hseq]

/-- The grant of its blocks to the subscription in block wait starts its pull (R75, R90). -/
theorem startGranted_of_waiting {s : State} {i : SubIdx} {im : Image} {c : Nat} (hc : c = chunkCount im.length.toNat)
    (hpos : 1 ≤ c) (hroom : c ≤ s.freeBlocks) :
    (s.grantBlocks i im.seq c).startGranted i im (s.allocated i im.seq c) =
      (({ s.allocate i im.seq c with pdu := { (s.allocate i im.seq c).pdu with blockGrantPtr := i } } : State).setEntry i im.seq
        (.pulling im)).modSub i fun b => { b with
          blockWait := none, pp := b.pp + 1, issue := some (im.seq, 0),
          pulls := b.pulls ++ [{ image := im, blocks := s.allocated i im.seq c, issued := 0, arrived := [] }] } := by
  have hgot : (s.allocated i im.seq c).length = c := allocated_length i im.seq s.pdu.blocks c 0 0 hroom
  have hne : im.length ≠ 0 := by
    intro h0
    rw [h0] at hc
    have : chunkCount (0 : Half).toNat = 0 := by decide
    omega
  have hpad : (s.grantBlocks i im.seq c).padBlocks (s.allocated i im.seq c) im = s.allocated i im.seq c := by
    unfold State.padBlocks
    rw [hgot, hc, Nat.sub_self]
    exact List.append_nil _
  rw [startGranted_grantBlocks, hpad, hgot, ← hc, Nat.sub_self, if_neg hne]
  unfold Sub.started
  dsimp only
  simp only [if_neg hne]
  rfl

theorem blockGrantStartsPull : Part.BlockGrantStartsPull := by
  intro i im c s hwait hothers hc hpos hroom hheld hseq hnone
  have hturn : blockGrantTurn s i = _ :=
    (blockGrantTurn_of_waiting hwait hroom hheld hseq).trans (startGranted_of_waiting hc hpos hroom)
  have hsub : (blockGrantTurn s i).sub i = { s.sub i with
      blockWait := none, pp := (s.sub i).pp + 1, issue := some (im.seq, 0),
      pulls := (s.sub i).pulls ++ [{ image := im, blocks := s.allocated i im.seq c, issued := 0, arrived := [] }] } := by
    rw [hturn, sub_modSub_self]
    rfl
  have hne (j : SubIdx) (hj : j ≠ i) : (blockGrantTurn s i).sub j = s.sub j := by
    rw [hturn, sub_modSub_ne _ _ (Ne.symm hj)]
    rfl
  have hround : Machine.blockGrantRound s = blockGrantTurn s i := by
    refine foldl_of_single (after_nodup _) (mem_after _ _) (fun j hj => ?_) fun j hj => ?_
    · unfold blockGrantTurn
      rw [hothers j hj]
    · rw [blockGrantTurn.eq_1 (blockGrantTurn s i) j, hne j hj, hothers j hj]
  have hlines : (blockGrantTurn s i).dpc.lines = (s.setEntry i im.seq (.pulling im)).dpc.lines := by
    rw [hturn]
    rfl
  have hempty : s.entryAt i im.seq ≠ .empty := by rw [hheld]; exact Entry.noConfusion
  have hquiet := not_deliverable_of_start (t := blockGrantTurn s i) hnone hempty hlines hne (by rw [hsub]; exact ⟨rfl, rfl, rfl⟩)
  have hexec : exec .blockGrantRound s = .next (blockGrantTurn s i) := by
    change Host.Outcome.next (deliverAll (Machine.blockGrantRound s)) = _
    rw [hround, deliverAll_stays hquiet]
  refine ⟨_, hexec, hsub, hne, ?_, ?_, ?_, ?_, ?_, ?_, ?_⟩
  · rw [entryAt_congr hlines, entryAt_setEntry_self _ hempty]
  all_goals
    rw [hturn]
    rfl

/-- Settles O50. The plain name is that of the round itself. -/
theorem Proofs.blockGrantRound : Obligations.BlockGrantRound := ⟨blockGrantStartsPull, blockGrantPassesOver⟩

/-! ### The line wait round (R66) -/

theorem lineWaitRoundIdle : Part.LineWaitRoundIdle := fun _ h => congrArg Host.Outcome.next (lineWaitRound_stays h)

/-- The waiting subscriptions of a round, where one alone waits. -/
theorem filter_after_single {n : Nat} {p i : Fin n} {q : Fin n → Bool} (hi : q i = true) (hothers : ∀ j, j ≠ i → q j = false) :
    (after p).filter q = [i] := by
  have hsame : (after p).filter q = (after p).filter (· == i) := List.filter_congr fun j _ => by
    by_cases h : j = i
    · subst h
      rw [hi, beq_self_eq_true]
    · rw [hothers j h, beq_eq_false_iff_ne.2 h]
  rw [hsame, List.filter_beq, List.count_eq_one_of_mem (after_nodup p) (mem_after p i)]
  rfl

theorem setLine_get_self (s : State) (l : LineIdx) (x : Line) : (s.setLine l x).dpc.lines.get l = x := by
  simp [State.setLine, Vector.get_eq_getElem]

theorem setLine_get_ne (s : State) {l k : LineIdx} (x : Line) (h : l ≠ k) : (s.setLine l x).dpc.lines.get k = s.dpc.lines.get k := by
  have : l.val ≠ k.val := fun e => h (Fin.ext e)
  simp [State.setLine, Vector.get_eq_getElem, this]

theorem takeSpare_of_lowest {s : State} {l : LineIdx} (h : s.lowestFreeLine = some l) (i : SubIdx) (g : Seq) :
    State.takeSpare i s g = s.setLine l (.assigned i g emptyEntries) := by
  unfold State.takeSpare
  rw [h]

theorem lowestFreeLine_free {s : State} {l : LineIdx} (h : s.lowestFreeLine = some l) : s.dpc.lines.get l = .free :=
  beq_iff_eq.1 (List.find?_some (p := fun l => s.dpc.lines.get l == .free) h)

theorem lowestFreeLine_of_least {s : State} {l : LineIdx} (hfree : s.dpc.lines.get l = .free)
    (hleast : ∀ k, k < l → s.dpc.lines.get k ≠ .free) : s.lowestFreeLine = some l :=
  find?_of_least (m := Fin.val) (List.pairwise_lt_finRange 48) (List.mem_finRange l) (beq_iff_eq.2 hfree) fun k _ hk =>
    Nat.le_of_not_lt fun hlt => hleast k hlt (beq_iff_eq.1 hk)

/-- Taking a spare line leaves a line that is not FREE as it is. -/
theorem takeSpare_line {s : State} {l : LineIdx} (h : s.dpc.lines.get l ≠ .free) (i : SubIdx) (g : Seq) :
    (State.takeSpare i s g).dpc.lines.get l = s.dpc.lines.get l := by
  cases hlowest : s.lowestFreeLine with
  | none =>
    unfold State.takeSpare
    rw [hlowest]
  | some k =>
    rw [takeSpare_of_lowest hlowest, setLine_get_ne]
    rintro rfl
    exact h (lowestFreeLine_free hlowest)

theorem takeSpares_line (i : SubIdx) {l : LineIdx} : ∀ (gs : List Seq) (s : State), s.dpc.lines.get l ≠ .free →
    (gs.foldl (State.takeSpare i) s).dpc.lines.get l = s.dpc.lines.get l
  | [], _, _ => rfl
  | g :: gs, s, h => by
    rw [List.foldl_cons, takeSpares_line i gs _ (by rw [takeSpare_line h]; exact h), takeSpare_line h]

/-- The first of the groups gets the lowest FREE line. -/
theorem takeSpares_first {s : State} {l : LineIdx} (h : s.lowestFreeLine = some l) (i : SubIdx) (g : Seq) (gs : List Seq) :
    ((g :: gs).foldl (State.takeSpare i) s).dpc.lines.get l = .assigned i g emptyEntries := by
  have hset : (State.takeSpare i s g).dpc.lines.get l = .assigned i g emptyEntries := by
    rw [takeSpare_of_lowest h, setLine_get_self]
  rw [List.foldl_cons, takeSpares_line i gs _ (by rw [hset]; exact Line.noConfusion), hset]

theorem mapEntries_line {s : State} {i : SubIdx} {l : LineIdx} {g : Seq} {es : Vector Entry 8} (f : Seq → Entry → Entry)
    (h : s.dpc.lines.get l = .assigned i g es) : ∃ es', (s.mapEntries i f).dpc.lines.get l = .assigned i g es' := by
  refine ⟨Vector.ofFn fun k => f (seqOfPlace g k.val) (es.get k), ?_⟩
  rw [mapEntries_eq]
  refine (mapTable_get _ _ _).trans ?_
  rw [h]
  exact if_pos (beq_self_eq_true i)

/-- The state with a FETCH of the cover claimed, before grants, where no line is borrowed. -/
def State.asking (s : State) (i : SubIdx) (c : Cover) : State :=
  ((((c.groups.take c.spare).foldl (State.takeSpare i) s).mapEntries i fun q e =>
    if inRange (s.sub i).ap ((s.sub i).ap + BitVec.ofNat 32 c.size) q then .asked else e).modSub i fun b =>
      { b with ap := (s.sub i).ap + BitVec.ofNat 32 c.size, fetchesOut := b.fetchesOut + 1 })

theorem issueFetch_of_no_borrow {s : State} {i : SubIdx} {c : Cover} (h : c.borrowed = none) : s.issueFetch i c =
    runGrants ((s.asking i c).modSub i fun b => { b with
      claims := b.claims ++ [.fetch (s.sub i).ap c.size ((s.asking i c).sub i).generation] }) := by
  unfold State.issueFetch
  rw [h]
  rfl

theorem asking_sub (s : State) (i : SubIdx) (c : Cover) : (s.asking i c).sub i =
    { s.sub i with ap := (s.sub i).ap + BitVec.ofNat 32 c.size, fetchesOut := (s.sub i).fetchesOut + 1 } := by
  have hspares : (((c.groups.take c.spare).foldl (State.takeSpare i) s)).sub i = s.sub i :=
    (takeSpares_linesOnly i (c.groups.take c.spare) s).sub i
  refine (sub_modSub_self _ _ _).trans ?_
  rw [show State.sub (State.mapEntries _ i _) i = s.sub i from hspares]

/-- The record after a FETCH is claimed and the grants are made. -/
theorem issueFetch_sub {s : State} {i : SubIdx} {c : Cover} (h : c.borrowed = none) : (s.issueFetch i c).sub i =
    { s.sub i with ap := (s.sub i).ap + BitVec.ofNat 32 c.size, fetchesOut := (s.sub i).fetchesOut + 1,
                   claims := ((s.issueFetch i c).sub i).claims } := by
  rw [issueFetch_of_no_borrow h]
  refine (runGrants_sub _ i).trans ?_
  rw [sub_modSub_self, asking_sub]

theorem issueFetch_line {s : State} {i : SubIdx} {c : Cover} {l : LineIdx} (h : c.borrowed = none) (hspare : 0 < c.spare)
    (hgroups : c.groups ≠ []) (hl : s.lowestFreeLine = some l) :
    ∃ es, (s.issueFetch i c).dpc.lines.get l = .assigned i (c.groups.headD 0) es := by
  obtain ⟨g, gs, hg⟩ := List.exists_cons_of_ne_nil hgroups
  obtain ⟨n, hn⟩ := Nat.exists_eq_succ_of_ne_zero (Nat.pos_iff_ne_zero.1 hspare)
  have hfirst := takeSpares_first hl i g (gs.take n)
  rw [← List.take_succ_cons, ← hg, ← Nat.succ_eq_add_one, ← hn] at hfirst
  obtain ⟨es, hes⟩ := mapEntries_line (fun q e =>
    if inRange (s.sub i).ap ((s.sub i).ap + BitVec.ofNat 32 c.size) q then .asked else e) hfirst
  refine ⟨es, ?_⟩
  rw [issueFetch_of_no_borrow h, runGrants_dpc, hg]
  exact hes

theorem sizeLimit_of_full {s : State} {i : SubIdx} (h : (s.sub i).fetchesOut = s.config.fetchesPerSub) : s.sizeLimit i = 0 := by
  unfold State.sizeLimit
  exact if_neg (by rw [h]; exact Nat.lt_irrefl _)

theorem cover_spare_le (s : State) (i : SubIdx) : (s.cover i).spare ≤ (s.cover i).groups.length := Nat.min_le_right _ _

theorem evaluateOnce_of_issue {s v : State} {i : SubIdx} (hv : s.modSub i (fun b => { b with lineWait := false }) = v)
    (hmade : (v.sub i).evaluated = true) (henough : v.enough i (v.cover i).size = true) :
    s.evaluateOnce i = { state := v.issueFetch i (v.cover i), issued := some (v.cover i) } := by
  unfold State.evaluateOnce
  dsimp only
  rw [hv, if_pos hmade, if_pos henough]

/-- A turn whose evaluation issues a FETCH with spare lines alone: the line-grant pointer moves, and the evaluations of this
subscription go on. -/
theorem lineWaitTurn_of_issue {s w : State} {i : SubIdx} {c : Cover} (hwait : (s.sub i).lineWait = true)
    (hlines : 0 < s.spareLines) (honce : s.evaluateOnce i = { state := w, issued := some c }) (hspare : 0 < c.spare)
    (hborrow : c.borrowed = none) :
    lineWaitTurn s i = evaluations 200 [i] { w with dpc := { w.dpc with lineGrantPtr := i } } := by
  have htakes : c.takesLine = true := by simp [Cover.takesLine, hspare]
  unfold lineWaitTurn
  rw [if_pos (by simp [hwait, hlines]), honce]
  dsimp only
  rw [if_pos htakes, hborrow]
  rfl

theorem lineWaitRound_of_single {s : State} {i : SubIdx} (hwait : (s.sub i).lineWait = true)
    (hothers : ∀ j, j ≠ i → (s.sub j).lineWait = false) : lineWaitRound s = lineWaitTurn s i := by
  unfold lineWaitRound
  rw [filter_after_single (q := fun j => (s.sub j).lineWait) hwait hothers]
  rfl

theorem lineWaitRoundServesWaiter : Part.LineWaitRoundServesWaiter := by
  intro i s hwait hothers hlines hstate hflush hfull v c henough hspare hborrow
  have hvsub : v.sub i = { s.sub i with lineWait := false } := sub_modSub_self _ _ _
  have hmade : (v.sub i).evaluated = true := by
    rw [hvsub]
    rcases hstate with h | h <;> simp [Sub.evaluated, h, hflush]
  have hsame : v.enough i c.size = s.enough i c.size := by
    unfold State.enough
    rw [hvsub]
    rfl
  have honce : s.evaluateOnce i = { state := v.issueFetch i c, issued := some c } :=
    evaluateOnce_of_issue rfl hmade (hsame.trans henough)
  have hissued := issueFetch_sub (s := v) (i := i) hborrow
  have hgroups : c.groups ≠ [] := List.ne_nil_of_length_pos (Nat.lt_of_lt_of_le hspare (cover_spare_le v i))
  have hline := fun l hl => issueFetch_line (s := v) (i := i) (l := l) hborrow hspare hgroups hl
  have hissueSide := issueFetch_cacheSide v i c
  rw [hvsub] at hissued
  generalize v.issueFetch i c = w at honce hissued hline hissueSide
  set u : State := { w with dpc := { w.dpc with lineGrantPtr := i } } with hu
  have hcache : CacheSide s u :=
    ((modSub_cacheSide s i _).trans hissueSide).trans ⟨rfl, rfl, rfl, rfl, rfl, rfl, rfl⟩
  have husub : u.sub i = w.sub i := rfl
  have hconfig : u.config = s.config := by
    unfold State.config
    rw [hcache.lpc]
  have hlimit : (u.modSub i fun b => { b with lineWait := false }).sizeLimit i = 0 := sizeLimit_of_full (by
    rw [sub_modSub_self, husub, hissued]
    exact hfull.trans (congrArg StartConfig.fetchesPerSub hconfig).symm)
  have hround : lineWaitRound s = u.modSub i fun b => { b with lineWait := false } := by
    rw [lineWaitRound_of_single hwait hothers, lineWaitTurn_of_issue hwait hlines honce hspare hborrow, ← hu]
    exact evaluations_of_limit hlimit 199
  have hside := hcache.trans (modSub_cacheSide u i fun b => { b with lineWait := false })
  have hsub : (u.modSub i fun b => { b with lineWait := false }).sub i = { w.sub i with lineWait := false } :=
    sub_modSub_self _ _ _
  refine ⟨_, congrArg Host.Outcome.next hround, rfl, by rw [hsub], fun l hfree hleast => ?_, ?_, ?_, ?_, ?_, ?_,
    hside.lpc, hside.liu, hside.pub, hside.pdu, hside.memory⟩
  · exact hline l (lowestFreeLine_of_least (s := v) hfree hleast)
  all_goals rw [hsub, hissued]

/-- Settles O51. The plain name is that of the round itself. -/
theorem Proofs.lineWaitRound : Obligations.LineWaitRound := ⟨lineWaitRoundIdle, lineWaitRoundServesWaiter⟩

end Sys2Proof.Machine
end

section
/-! PROOFS. A delivery (R96, R97): the record's bytes, the Delivery Queue's indices, and what the same event leaves. -/
namespace Sys2Proof.Machine

/-! ### What the engines leave of the Delivery Queue -/

/-- The Delivery Queue's indices, its fill and the delivery pointer are kept. -/
structure QueueKept (p q : Pdu) : Prop where
  fill        : q.fill = p.fill
  writeIndex  : q.writeIndex = p.writeIndex
  readIndex   : q.readIndex = p.readIndex
  deliveryPtr : q.deliveryPtr = p.deliveryPtr

theorem QueueKept.refl (p : Pdu) : QueueKept p p := ⟨rfl, rfl, rfl, rfl⟩

theorem QueueKept.trans {p q r : Pdu} (h : QueueKept p q) (k : QueueKept q r) : QueueKept p r :=
  ⟨k.fill.trans h.fill, k.writeIndex.trans h.writeIndex, k.readIndex.trans h.readIndex, k.deliveryPtr.trans h.deliveryPtr⟩

theorem QueueKept.of_eq {p q : Pdu} (h : q = p) : QueueKept p q := h ▸ .refl p

theorem completeFinishing_queue (s : State) (i : SubIdx) : QueueKept s.pdu (s.completeFinishing i).pdu := by
  unfold State.completeFinishing State.postSub
  rw [post_pdu]
  exact .trans (q := (s.discardBlocks i fun _ => true).pdu) ⟨rfl, rfl, rfl, rfl⟩
    (QueueKept.of_eq ((placeOneOff_pdu _ _).trans rfl))

theorem completeLeave_queue (s : State) (i : SubIdx) : QueueKept s.pdu (s.completeLeave i).pdu := by
  unfold State.completeLeave State.postSub
  rw [post_pdu]
  exact .trans (q := (s.discardBlocks i fun _ => true).pdu) ⟨rfl, rfl, rfl, rfl⟩
    (QueueKept.of_eq ((placeOneOff_pdu _ _).trans rfl))

theorem Move.queue {k : Kind} {s t : State} (h : Move k s t) (hk : k ≠ .deliver) : QueueKept s.pdu t.pdu := by
  cases h with
  | complete s i => exact completeFinishing_queue s i
  | deliver => exact absurd rfl hk
  | depart s i => exact completeLeave_queue s i
  | _ => exact ⟨rfl, rfl, rfl, rfl⟩

theorem Moves.queue {K : List Kind} (hK : Kind.deliver ∉ K) {s t : State} (h : Moves K s t) : QueueKept s.pdu t.pdu :=
  h.keeps (inv := fun t => QueueKept s.pdu t.pdu) (fun _ hk _ _ hm hs => hs.trans (hm.queue fun e => hK (e ▸ hk))) (.refl _)

/-! ### The delivery itself -/

theorem deliverFor_cacheSide (s : State) (i : SubIdx) :
    CacheSide (((s.writeRecord i).mapBlocks (Block.deliver i (s.sub i).dp)).countRecord i) (s.deliverFor i) :=
  ((setEntry_cacheSide _ _ _ _).trans (modSub_cacheSide _ _ _)).trans (trimLines_cacheSide _ _)

theorem deliverFor_memory (s : State) (i : SubIdx) : (s.deliverFor i).memory = (s.writeRecord i).memory :=
  (deliverFor_cacheSide s i).memory

theorem deliverFor_queue (s : State) (i : SubIdx) : QueueKept
    { s.pdu with deliveryPtr := i, writeIndex := (s.pdu.writeIndex + 1) % s.pdu.capacity, fill := s.pdu.fill + 1 }
    (s.deliverFor i).pdu := by
  rw [(deliverFor_cacheSide s i).pdu, writeRecord_eq]
  exact ⟨rfl, rfl, rfl, rfl⟩

theorem deliverFor_sub (s : State) (i : SubIdx) : (s.deliverFor i).sub i = (s.sub i).delivered := by
  have hsub : (((s.writeRecord i).mapBlocks (Block.deliver i (s.sub i).dp)).countRecord i).sub i = s.sub i := by
    rw [writeRecord_eq]
    rfl
  refine ((trimLines_linesOnly _ i).sub i).trans ((sub_modSub_self _ _ _).trans ?_)
  exact congrArg Sub.delivered hsub

/-- The word of a block in the delivery record (Table 10-9): its number where the payload has one so far, else 0. -/
def recordBlock (p : PullRecord) (k : Nat) : Half :=
  if k < chunkCount p.image.length.toNat then BitVec.ofNat 16 (p.blocks.getD k 0) else 0

/-- The first sixteen bytes of a delivery record. -/
def recordHead (i : SubIdx) (b : Sub) (im : Image) : List Byte :=
  [BitVec.ofNat 8 i.val, b.producer.setWidth 8, (ringField b.ring).setWidth 8, flagsByte im.fence im.last] ++
    wordBytes im.seq ++ wordBytes im.stamp ++ halfBytes im.length ++ [BitVec.ofNat 8 (chunkCount im.length.toNat), 0]

theorem deliveryRecord_eq (i : SubIdx) (b : Sub) (p : PullRecord) :
    deliveryRecord i b p = recordHead i b p.image ++ ((List.range 16).map (recordBlock p)).flatMap halfBytes := by
  have hblock : (fun k => if k < chunkCount p.image.length.toNat then halfBytes (BitVec.ofNat 16 (p.blocks.getD k 0))
      else [0, 0]) = fun k => halfBytes (recordBlock p k) := funext fun k => by
    unfold recordBlock
    split <;> rfl
  rw [List.flatMap_map, ← hblock]
  rfl

theorem flatMap_halfBytes_length : ∀ ws : List Half, (ws.flatMap halfBytes).length = 2 * ws.length
  | [] => rfl
  | w :: ws => by
    rw [List.flatMap_cons, List.length_append, flatMap_halfBytes_length ws, List.length_cons]
    change 2 + _ = _
    omega

/-- The halfwords of a list of bytes made of halfwords. -/
theorem half_flatMap_halfBytes : ∀ (ws : List Half) (k : Nat),
    half ((ws.flatMap halfBytes).getD (2 * k) 0) ((ws.flatMap halfBytes).getD (2 * k + 1) 0) = ws.getD k 0
  | [], _ => by simp [half]
  | w :: _, 0 => half_halfBytes w
  | w :: ws, k + 1 => half_flatMap_halfBytes ws k

theorem deliveryRecord_length (i : SubIdx) (b : Sub) (p : PullRecord) : (deliveryRecord i b p).length = 48 := by
  rw [deliveryRecord_eq, List.length_append, flatMap_halfBytes_length, List.length_map, List.length_range]
  rfl

theorem deliveryRecord_head {k : Nat} (hk : k < 16) (i : SubIdx) (b : Sub) (p : PullRecord) :
    (deliveryRecord i b p).getD k 0 = (recordHead i b p.image).getD k 0 := by
  rw [deliveryRecord_eq]
  exact List.getD_append _ _ _ _ hk

theorem deliveryRecord_tail (k : Nat) (i : SubIdx) (b : Sub) (p : PullRecord) :
    (deliveryRecord i b p).getD (16 + k) 0 = (((List.range 16).map (recordBlock p)).flatMap halfBytes).getD k 0 := by
  rw [deliveryRecord_eq]
  refine (List.getD_append_right _ _ _ _ (Nat.le_add_right 16 k)).trans ?_
  rw [show 16 + k - (recordHead i b p.image).length = k from Nat.add_sub_cancel_left 16 k]

theorem deliveryRecord_block {k : Nat} (hk : k < 16) (i : SubIdx) (b : Sub) (p : PullRecord) :
    half ((deliveryRecord i b p).getD (16 + 2 * k) 0) ((deliveryRecord i b p).getD (17 + 2 * k) 0) = recordBlock p k := by
  rw [deliveryRecord_tail, show 17 + 2 * k = 16 + (2 * k + 1) by omega, deliveryRecord_tail, half_flatMap_halfBytes]
  simp [List.getD_eq_getElem?_getD, hk]

theorem chunkCount_le {n : Nat} (h : n ≤ 4096) : chunkCount n ≤ 16 := by
  unfold chunkCount
  omega

theorem deliveryRecordLayout : Part.DeliveryRecordLayout := by
  intro i b p hlen
  have hhead := fun k (hk : k < 16) => deliveryRecord_head hk i b p
  obtain ⟨hfence, hlast⟩ := flagsByte_bits p.image.fence p.image.last
  have hcount := chunkCount_le hlen
  have hindex : (BitVec.ofNat 8 i.val).toNat = i.val := by
    rw [BitVec.toNat_ofNat]
    exact Nat.mod_eq_of_lt (by omega)
  have hproducer : (b.producer.setWidth 8).toNat = b.producer.toNat := by
    rw [BitVec.toNat_setWidth]
    exact Nat.mod_eq_of_lt (by have := b.producer.isLt; omega)
  have hring : ((ringField b.ring).setWidth 8).toNat = b.ring.val := by
    rw [BitVec.toNat_setWidth, ringField_toNat]
    exact Nat.mod_eq_of_lt (by omega)
  have hchunks : (BitVec.ofNat 8 (chunkCount p.image.length.toNat)).toNat = (p.image.length.toNat + 255) / 256 := by
    rw [BitVec.toNat_ofNat]
    exact Nat.mod_eq_of_lt (by omega)
  dsimp only
  refine ⟨deliveryRecord_length i b p, ?_, ?_, ?_, ?_, ?_, ?_, ?_, ?_, ?_, ?_, fun k hk => deliveryRecord_block hk i b p⟩
  · rw [hhead 0 (by decide)]
    exact hindex
  · rw [hhead 1 (by decide)]
    exact hproducer
  · rw [hhead 2 (by decide)]
    exact hring
  · rw [hhead 3 (by decide)]
    exact hfence
  · rw [hhead 3 (by decide)]
    exact hlast
  · rw [hhead 4 (by decide), hhead 5 (by decide), hhead 6 (by decide), hhead 7 (by decide)]
    exact word_wordBytes _
  · rw [hhead 8 (by decide), hhead 9 (by decide), hhead 10 (by decide), hhead 11 (by decide)]
    exact word_wordBytes _
  · rw [hhead 12 (by decide), hhead 13 (by decide)]
    exact half_halfBytes _
  · rw [hhead 14 (by decide)]
    exact hchunks
  · rw [hhead 15 (by decide)]
    rfl

theorem writeRecord_of_record {s : State} {i : SubIdx} {p : PullRecord} (h : (s.sub i).pullRecord (s.sub i).dp = some p) :
    s.writeRecord i = s.putBytes (s.queueSlot s.pdu.writeIndex) (deliveryRecord i (s.sub i) p) := by
  unfold State.writeRecord
  rw [h]

theorem byteAt_congr {s t : State} (h : t.memory = s.memory) (x : Addr) : t.byteAt x = s.byteAt x := by
  unfold State.byteAt
  rw [h]

/-- What follows a delivery in its event (R66, R58, R40). -/
theorem afterDelivery_moves (s : State) (i : SubIdx) :
    Moves [.seek, .supply, .complete] s (((lineWaitRound s).evaluate [i]).finishingTest i) :=
  (((lineWaitRound_moves s).trans (evaluate_moves _ _)).mono (by decide)).trans (finishingTest_moves _ _)

/-- The state after a delivery for subscription `i` and what the same event leads to. -/
def State.deliveryEvent (s : State) (i : SubIdx) : State :=
  ((lineWaitRound (s.deliverFor i)).evaluate [i]).finishingTest i

theorem deliverOnce_of_first {s : State} {i : SubIdx} (hroom : s.pdu.fill < s.pdu.capacity)
    (hfirst : firstAfter s.pdu.deliveryPtr (fun j => s.deliverable j = true) i) : deliverOnce s = some (s.deliveryEvent i) := by
  have hnext : s.nextDelivery = some i := by
    unfold State.nextDelivery
    rw [if_pos hroom]
    exact find?_after hfirst fun _ => Iff.rfl
  unfold deliverOnce
  rw [hnext]
  rfl

theorem exec_delivery {s t : State} (h : deliverOnce s = some t) : exec .delivery s = .next t := by
  change Host.Outcome.next ((deliverOnce s).getD s) = _
  rw [h]
  rfl

theorem deliveryWritesRecord : Part.DeliveryWritesRecord := by
  intro i p s hroom hfirst hpull hwf
  have hlength := deliveryRecord_length i (s.sub i) p
  have hafter : Moves _ _ (s.deliveryEvent i) := afterDelivery_moves (s.deliverFor i) i
  have honce := deliverOnce_of_first hroom hfirst
  generalize s.deliveryEvent i = t at hafter honce
  have hqueue := (deliverFor_queue s i).trans (hafter.queue (by decide))
  have hmemory : t.memory = (s.putBytes (s.queueSlot s.pdu.writeIndex) (deliveryRecord i (s.sub i) p)).memory := by
    rw [(hafter.store (by decide)).1, deliverFor_memory, writeRecord_of_record hpull]
  refine ⟨t, exec_delivery honce, ?_, ?_, hqueue.fill, hqueue.writeIndex, hqueue.readIndex, hqueue.deliveryPtr, ?_, ?_,
    (deliverOnce_consumerSide s t honce).pub⟩
  · rw [hafter.dp (by decide) i, deliverFor_sub]
    rfl
  · rw [(hafter.sameTail i).rm, deliverFor_sub]
    rfl
  · intro k hk
    rw [byteAt_congr hmemory, List.getD_eq_getElem _ 0 (hlength ▸ hk)]
    exact byteAt_putBytes hwf (by omega) (hlength ▸ hk)
  · intro x hx
    rw [byteAt_congr hmemory]
    exact byteAt_putBytes_outside x _ s _ fun k hk => hx k (hlength ▸ hk)

/-- Settles O52. -/
theorem deliveryOutcomes : Obligations.DeliveryOutcomes := ⟨deliveryWritesRecord, deliveryRecordLayout⟩

end Sys2Proof.Machine
end

section
/-! PROOFS. JOIN (R27, R28). -/
namespace Sys2Proof.Machine

theorem exec_join_of_ready {s : State} (h : s.ready) (w0 w1 w2 w3 : Word) :
    exec (.join w0 w1 w2 w3) s = .next (takeJoin w0 w1 w2 w3 (s.args4 7 w0 w1 w2 w3)) :=
  congrArg Host.Outcome.next (issue_four_words h (by decide) (by decide) w0 w1 w2 w3)

/-! ### The arguments -/

theorem joinDepth_eq (w : Word) : joinDepth w = w.toNat % 256 := by
  unfold joinDepth
  rw [BitVec.extractLsb'_toNat, Nat.shiftRight_zero]

theorem joinWindow_eq (w : Word) : joinWindow w = w.toNat / 256 % 256 := by
  unfold joinWindow
  rw [BitVec.extractLsb'_toNat, Nat.shiftRight_eq_div_pow]

theorem upperHalf_zero_iff (w : Word) : w.extractLsb' 16 16 = 0 ↔ w.toNat < 65536 := by
  rw [← BitVec.toNat_inj, BitVec.extractLsb'_toNat, Nat.shiftRight_eq_div_pow]
  have := w.isLt
  change w.toNat / 65536 % 65536 = 0 ↔ _
  omega

theorem joinArgsOk_iff (w0 w1 w2 w3 : Word) : joinArgsOk w0 w1 w2 w3 = true ↔ joinArgs w0 w1 w2 w3 := by
  have hdepth : (8 ≤ w3.toNat % 256 ∧ w3.toNat % 256 ≤ 64) ∧ w3.toNat % 256 % 8 = 0 ↔
      ∃ k, 1 ≤ k ∧ k ≤ 8 ∧ w3.toNat % 256 = 8 * k :=
    ⟨fun ⟨_, _⟩ => ⟨w3.toNat % 256 / 8, by omega⟩, fun ⟨k, _, _, _⟩ => by omega⟩
  simp only [joinArgsOk, joinArgs, within, Bool.and_eq_true, decide_eq_true_eq, beq_iff_eq, joinDepth_eq, joinWindow_eq,
    upperHalf_zero_iff, ← hdepth]
  tauto

/-! ### The branches of JOIN -/

theorem takeJoin_of_bad_args {w0 w1 w2 w3 : Word} (h : ¬ joinArgs w0 w1 w2 w3) (s : State) :
    takeJoin w0 w1 w2 w3 s = s.finish .badArg 0 0 := by
  unfold takeJoin
  rw [Bool.eq_false_iff.2 fun e => h ((joinArgsOk_iff _ _ _ _).1 e)]
  rfl

/-- The record names the producer and the ring of a JOIN (R27). -/
def Sub.named (b : Sub) (w0 w1 : Word) : Prop := b.state ≠ .free ∧ b.producer.toNat = w0.toNat ∧ b.ring.val = w1.toNat

/-- What JOIN does with the record and the line that it takes (R28). -/
def State.joined (s : State) (i : SubIdx) (w0 w1 w2 w3 : Word) : State :=
  ((s.modSub i fun b => b.joining (w0.setWidth 5) ⟨w1.toNat % 8, Nat.mod_lt _ (by decide)⟩ (w2 == 1) (joinDepth w3)
    (joinWindow w3)).reserveLine i).finish .ok (BitVec.ofNat 32 i.val) 0

section
variable {w0 w1 w2 w3 : Word} {s : State} (h : joinArgs w0 w1 w2 w3)
include h

theorem takeJoin_of_args : takeJoin w0 w1 w2 w3 s =
    if (w0.setWidth 5 : Station) = s.lpc.stationNumber then s.finish .self 0 0
    else match s.findSub (w0.setWidth 5) ⟨w1.toNat % 8, Nat.mod_lt _ (by decide)⟩ with
      | some j => s.finish .duplicate (BitVec.ofNat 32 j.val) 0
      | none => match s.lowestFreeSub with
        | none => s.finish .noRoom 0 0
        | some i => (s.joined i w0 w1 w2 w3).claim i (.join (w2 == 1)) := by
  have hring : ringOfWord w1 = some ⟨w1.toNat % 8, Nat.mod_lt _ (by decide)⟩ :=
    ringOfWord_of_eq (Nat.mod_eq_of_lt h.2.1).symm
  unfold takeJoin
  rw [(joinArgsOk_iff _ _ _ _).2 h, hring]
  rfl

theorem station_of_joinArgs (p : Station) : p = w0.setWidth 5 ↔ p.toNat = w0.toNat := by
  rw [← BitVec.toNat_inj, BitVec.toNat_setWidth, Nat.mod_eq_of_lt h.1]

theorem ring_of_joinArgs (r : RingIdx) : r = ⟨w1.toNat % 8, Nat.mod_lt _ (by decide)⟩ ↔ r.val = w1.toNat := by
  refine Fin.ext_iff.trans ?_
  change r.val = w1.toNat % 8 ↔ _
  rw [Nat.mod_eq_of_lt h.2.1]

theorem takeJoin_self (hself : w0.toNat = s.lpc.stationNumber.toNat) : takeJoin w0 w1 w2 w3 s = s.finish .self 0 0 := by
  rw [takeJoin_of_args h, if_pos ((station_of_joinArgs h _).2 hself.symm).symm]

variable (hother : w0.toNat ≠ s.lpc.stationNumber.toNat)
include hother

theorem takeJoin_named (hnamed : ∃ j, (s.sub j).named w0 w1) :
    ∃ j, (s.sub j).named w0 w1 ∧ takeJoin w0 w1 w2 w3 s = s.finish .duplicate (BitVec.ofNat 32 j.val) 0 := by
  cases hfind : s.findSub (w0.setWidth 5) ⟨w1.toNat % 8, Nat.mod_lt _ (by decide)⟩ with
  | none =>
    obtain ⟨j, hstate, hproducer, hring⟩ := hnamed
    rcases findSub_eq_none.1 hfind j with hj | hj | hj
    · exact absurd hj hstate
    · exact absurd ((station_of_joinArgs h _).2 hproducer) hj
    · exact absurd ((ring_of_joinArgs h _).2 hring) hj
  | some j =>
    obtain ⟨hstate, hproducer, hring⟩ := findSub_eq_some hfind
    refine ⟨j, ⟨hstate, (station_of_joinArgs h _).1 hproducer, (ring_of_joinArgs h _).1 hring⟩, ?_⟩
    rw [takeJoin_of_args h, if_neg fun e => hother ((station_of_joinArgs h _).1 e.symm).symm, hfind]

theorem takeJoin_unnamed (hnone : ∀ j, ¬ (s.sub j).named w0 w1) : takeJoin w0 w1 w2 w3 s =
    match s.lowestFreeSub with
    | none => s.finish .noRoom 0 0
    | some i => (s.joined i w0 w1 w2 w3).claim i (.join (w2 == 1)) := by
  have hfind : s.findSub (w0.setWidth 5) ⟨w1.toNat % 8, Nat.mod_lt _ (by decide)⟩ = none :=
    findSub_eq_none.2 fun j => by
      rw [Ne, station_of_joinArgs h, Ne, ring_of_joinArgs h]
      by_contra hj
      rw [not_or, not_or, not_not, not_not] at hj
      exact hnone j hj
  rw [takeJoin_of_args h, if_neg fun e => hother ((station_of_joinArgs h _).1 e.symm).symm, hfind]

theorem takeJoin_of_free {i : SubIdx} (hnone : ∀ j, ¬ (s.sub j).named w0 w1) (hfree : s.lowestFreeSub = some i) :
    takeJoin w0 w1 w2 w3 s = (s.joined i w0 w1 w2 w3).claim i (.join (w2 == 1)) := by
  rw [takeJoin_unnamed h hother hnone, hfree]

end

theorem lowestFreeSub_none {s : State} (h : ∀ j, (s.sub j).state ≠ .free) : s.lowestFreeSub = none :=
  List.find?_eq_none.2 fun j _ => fun e => h j (beq_iff_eq.1 e)

theorem lowestFreeSub_of_least {s : State} {i : SubIdx} (hfree : (s.sub i).state = .free)
    (hleast : ∀ j, j < i → (s.sub j).state ≠ .free) : s.lowestFreeSub = some i :=
  find?_of_least (m := Fin.val) (List.pairwise_lt_finRange 24) (List.mem_finRange i) (beq_iff_eq.2 hfree) fun j _ hj =>
    Nat.le_of_not_lt fun hlt => hleast j hlt (beq_iff_eq.1 hj)

theorem joinRefusals : Part.JoinRefusals := by
  intro w0 w1 w2 w3 s hready u named
  have hexec := exec_join_of_ready hready w0 w1 w2 w3
  refine ⟨fun hargs => ?_, fun hargs => ⟨fun hself => ?_, fun hother => ⟨fun hnamed => ?_, fun hnone hfull => ?_⟩⟩⟩
  · rw [hexec, takeJoin_of_bad_args hargs]
  · rw [hexec, takeJoin_self (s := s.args4 7 w0 w1 w2 w3) hargs hself]
  · rw [hexec]
    obtain ⟨j, hj, htake⟩ := takeJoin_named (s := s.args4 7 w0 w1 w2 w3) (w2 := w2) (w3 := w3) hargs hother hnamed
    exact ⟨j, hj, congrArg Host.Outcome.next htake⟩
  · rw [hexec, takeJoin_unnamed (s := s.args4 7 w0 w1 w2 w3) hargs hother fun j hj => hnone ⟨j, hj⟩,
      lowestFreeSub_none (s := s.args4 7 w0 w1 w2 w3) hfull]

/-! ### A JOIN that passes -/

theorem reserveLine_of_lowest {s : State} {l : LineIdx} (h : s.lowestFreeLine = some l) (i : SubIdx) :
    s.reserveLine i = s.setLine l (.reserved i) := by
  unfold State.reserveLine
  rw [h]

section
variable (s : State) (i : SubIdx) (w0 w1 w2 w3 : Word)

theorem joined_sub_self : (s.joined i w0 w1 w2 w3).sub i = { Sub.fresh (s.sub i).generation with
    state := .joining, producer := w0.setWidth 5, ring := ⟨w1.toNat % 8, Nat.mod_lt _ (by decide)⟩, newest := w2 == 1,
    depth := w3.toNat % 256, window := w3.toNat / 256 % 256 } := by
  rw [← joinDepth_eq, ← joinWindow_eq]
  exact ((reserveLine_linesOnly _ i).sub i).trans (sub_modSub_self s i _)

theorem joined_sub_ne {j : SubIdx} (h : j ≠ i) : (s.joined i w0 w1 w2 w3).sub j = s.sub j :=
  ((reserveLine_linesOnly _ i).sub j).trans (sub_modSub_ne s _ h.symm)

theorem joined_rest : (s.joined i w0 w1 w2 w3).lpc =
      { s.lpc with res := 0, res0 := BitVec.ofNat 32 i.val, res1 := 0, slot := .idle } ∧
    (s.joined i w0 w1 w2 w3).pub = s.pub ∧ (s.joined i w0 w1 w2 w3).pdu = s.pdu ∧ (s.joined i w0 w1 w2 w3).liu = s.liu ∧
    (s.joined i w0 w1 w2 w3).memory = s.memory := by
  unfold State.joined
  rw [reserveLine_linesOnly (s.modSub i _) i]
  exact ⟨rfl, rfl, rfl, rfl, rfl⟩

theorem joined_lines {l : LineIdx} (h : s.lowestFreeLine = some l) : (s.joined i w0 w1 w2 w3).dpc.lines.get l = .reserved i ∧
    ∀ k, k ≠ l → (s.joined i w0 w1 w2 w3).dpc.lines.get k = s.dpc.lines.get k := by
  unfold State.joined
  rw [reserveLine_of_lowest (s := s.modSub i _) h]
  exact ⟨setLine_get_self (s.modSub i _) l _, fun k hk => setLine_get_ne (s.modSub i _) _ hk.symm⟩

end

/-- A claim leaves every record as it was but for its claims. -/
theorem claim_sub (s : State) (i j : SubIdx) (q : Request) :
    (s.claim i q).sub j = { s.sub j with claims := ((s.claim i q).sub j).claims } := by
  refine (runGrants_sub (s.modSub i fun b => { b with claims := b.claims ++ [q] }) j).trans ?_
  rw [sub_modSub]
  split <;> rfl

theorem claim_dpc (s : State) (i : SubIdx) (q : Request) : (s.claim i q).dpc = s.dpc := runGrants_dpc _

/-- A claim of a subscription that has none: it waits, or is granted a tag. -/
theorem claim_only {s : State} {i : SubIdx} (q : Request) (h : (s.sub i).claims = []) : ((s.claim i q).sub i).claims = [q] ∨
    ∃ g, ((s.claim i q).tag g).bound = some { sub := i, request := q, attempts := 1, deadline := none } :=
  runGrants_claim (s := s.modSub i fun b => { b with claims := b.claims ++ [q] }) (by rw [sub_modSub_self, h]; rfl)

theorem joinTakesFreeRecord : Part.JoinTakesFreeRecord := by
  intro w0 w1 w2 w3 i l s hready hargs hother hfresh hfree hleast hline hlines
  have hexec := exec_join_of_ready hready w0 w1 w2 w3
  have hunnamed : ∀ j, ¬ (s.sub j).named w0 w1 := fun j hj => by
    obtain ⟨hstate, hproducer, hring⟩ := hj
    rcases hfresh j with h | h | h
    · exact hstate h
    · exact h hproducer
    · exact h hring
  rw [takeJoin_of_free (s := s.args4 7 w0 w1 w2 w3) hargs hother hunnamed
    (lowestFreeSub_of_least (s := s.args4 7 w0 w1 w2 w3) hfree hleast)] at hexec
  have hsub := joined_sub_self (s.args4 7 w0 w1 w2 w3) i w0 w1 w2 w3
  have hothers := fun j (hj : j ≠ i) => joined_sub_ne (s.args4 7 w0 w1 w2 w3) i w0 w1 w2 w3 hj
  obtain ⟨hlpc, hpub, hpdu, hliu, hmemory⟩ := joined_rest (s.args4 7 w0 w1 w2 w3) i w0 w1 w2 w3
  obtain ⟨hreserved, hkept⟩ := joined_lines (s.args4 7 w0 w1 w2 w3) i w0 w1 w2 w3 (lowestFreeLine_of_least hline hlines)
  generalize (s.args4 7 w0 w1 w2 w3).joined i w0 w1 w2 w3 = u at *
  have hside : CacheSide u (u.claim i (.join (w2 == 1))) := claim_cacheSide u i _
  have hport : u.lpc = { s.lpc with
      cmd := 7, arg0 := w0, arg1 := w1, arg2 := w2, arg3 := w3, res := 0, res0 := BitVec.ofNat 32 i.val, res1 := 0 } := by
    rw [hlpc, ← hready.2]
    rfl
  refine ⟨_, hexec, hside.lpc.trans hport, ?_, claim_only _ (by rw [hsub]; rfl), ?_, fun k hk => ?_, fun j hj => ?_,
    hside.pub.trans hpub, hside.pdu.trans hpdu, hside.liu.trans hliu, hside.memory.trans hmemory⟩
  · exact (claim_sub u i i _).trans (by rw [hsub]; rfl)
  · rw [claim_dpc, hreserved]
  · rw [claim_dpc, hkept k hk]
    rfl
  · exact (claim_sub u i j _).trans (by rw [hothers j hj]; rfl)

/-- Settles O13. -/
theorem joinOutcomes : Obligations.JoinOutcomes := ⟨joinRefusals, joinTakesFreeRecord⟩

end Sys2Proof.Machine
end

section
/-! PROOFS. LEAVE (R41, R82, R105, R121). -/
namespace Sys2Proof.Machine

theorem exec_leave_of_ready {s : State} (h : s.ready) (w0 : Word) :
    exec (.leave w0) s = .next (takeLeave w0 (s.args1 8 w0)) :=
  congrArg Host.Outcome.next (issue_one_word h (by decide) (by decide) w0)

/-! ### The record of a subscription that has left -/

/-- What LEAVE makes of a record from ACTIVE or FINISHING, for as long as it is not dismissed: the timers stopped, no wait and
no issue position, and FP (where `P`) and AP (where `Q`) at PP. -/
structure Departed (P Q : Prop) (b : Sub) : Prop where
  state          : b.state = .leaving ∨ b.state = .ended
  poll           : b.poll = none
  keepalive      : b.keepalive = none
  releasePending : b.releasePending = false
  lineWait       : b.lineWait = false
  pullWait       : b.pullWait = false
  blockWait      : b.blockWait = none
  issue          : b.issue = none
  fp             : P → b.fp = b.pp
  ap             : Q → b.ap = b.pp

theorem Departed.of_ended {P Q : Prop} (b : Sub) (e : EndReason) (w : Word) : Departed P Q (b.ended e w) :=
  ⟨.inr rfl, rfl, rfl, rfl, rfl, rfl, rfl, rfl, fun _ => rfl, fun _ => rfl⟩

theorem Departed.not_evaluated {P Q : Prop} {b : Sub} (h : Departed P Q b) : b.evaluated ≠ true := by
  unfold Sub.evaluated
  rcases h.state with e | e <;> rw [e] <;> simp

/-- A cut at or above PP leaves what stands at PP. -/
theorem seqMin_start {a p x : Seq} (h : seqUpTo p x = true) (ha : a = p) : seqMin a x = p := by
  rw [ha, seqMin_of_upTo h]

theorem SubMove.departed {P Q : Prop} {k : Kind} {b c : Sub} (hm : SubMove k b c) (h : Departed P Q b) : Departed P Q c := by
  have hnot : b.evaluated ≠ true := h.not_evaluated
  have ⟨hstate, hpoll, hkeep, hrelease, hline, hpull, hblock, hissue, hfp, hap⟩ := h
  cases hm with
  | same => exact h
  | seek hseek =>
    cases hseek with
    | lineWait w hw =>
      have hclear : w = false := Bool.eq_false_iff.2 fun e => hnot (hw e)
      exact ⟨hstate, hpoll, hkeep, hrelease, hclear, hpull, hblock, hissue, hfp, hap⟩
    | cut x hx =>
      exact ⟨hstate, hpoll, hkeep, hrelease, hline, hpull, hblock, hissue, fun p => seqMin_start hx (hfp p),
        fun q => seqMin_start hx (hap q)⟩
    | ask x hmade => exact absurd hmade hnot
    | claim q hmade => exact absurd hmade hnot
  | grant => exact ⟨hstate, hpoll, hkeep, hrelease, hline, hpull, hblock, hissue, hfp, hap⟩
  | supply hwait => exact absurd hblock hwait
  | complete => exact .of_ended _ _ _
  | deliver => exact ⟨hstate, hpoll, hkeep, hrelease, hline, hpull, hblock, hissue, hfp, hap⟩
  | depart => exact .of_ended _ _ _

theorem Moves.departed {P Q : Prop} {K : List Kind} {s t : State} (h : Moves K s t) {i : SubIdx} (hs : Departed P Q (s.sub i)) :
    Departed P Q (t.sub i) :=
  h.record (inv := Departed P Q) (fun _ _ _ _ hm hb => hm.departed hb) i hs

/-! ### Entry to LEAVING -/

/-- What lies at or beyond PP, less than half the ring of sequences away, is cut to PP. -/
theorem seqMin_at_start {a p : Seq} (h : (a - p).toNat < 2147483648) : seqMin a p = p := by
  unfold seqMin
  split
  · rfl
  · rename_i hb
    rw [seqBefore_iff] at hb
    bv_omega

theorem flushTest_departed {P Q : Prop} {s : State} {i : SubIdx} (h : Departed P Q (s.sub i)) :
    Departed P Q ((s.flushTest i).sub i) := by
  obtain ⟨_, _, _, hrecord⟩ := (flushTest_flushSide s i).record
  obtain ⟨hstate, hpoll, hkeep, hrelease, hline, hpull, hblock, hissue, hfp, hap⟩ := h
  rw [hrecord]
  exact ⟨hstate, hpoll, hkeep, hrelease, hline, hpull, hblock, hissue, hfp, hap⟩

theorem enterLeaving_departed {s : State} {i : SubIdx} (h : (s.sub i).state ≠ .joining) :
    Departed (((s.sub i).fp - (s.sub i).pp).toNat < 2147483648) (((s.sub i).ap - (s.sub i).pp).toNat < 2147483648)
      ((s.enterLeaving i).sub i) := by
  have hcut : (s.cutAt i (s.sub i).pp).sub i =
      { s.sub i with ap := seqMin (s.sub i).ap (s.sub i).pp, fp := seqMin (s.sub i).fp (s.sub i).pp } := by
    rw [cutAt_sub_self, if_pos]
    rw [seqUpTo_iff, BitVec.sub_self]
    decide
  unfold State.enterLeaving
  rw [if_neg h]
  refine flushTest_departed ?_
  rw [sub_modSub_self, hcut]
  exact ⟨.inl rfl, rfl, rfl, rfl, rfl, rfl, rfl, rfl, seqMin_at_start, seqMin_at_start⟩

theorem enterLeaving_state (s : State) (i : SubIdx) : ((s.enterLeaving i).sub i).state = .leaving := by
  unfold State.enterLeaving
  split
  · rw [sub_modSub_self]
  · obtain ⟨_, _, _, hrecord⟩ := (flushTest_flushSide ((s.cutAt i (s.sub i).pp).modSub i Sub.leaving) i).record
    rw [hrecord, sub_modSub_self]
    rfl

/-- The completion test of a leave: the subscription stays in LEAVING, or it has left. -/
theorem leaveTest_outcome {s : State} {i : SubIdx} (h : (s.sub i).state = .leaving) :
    ((s.leaveTest i).sub i).state = .leaving ∨ ((s.leaveTest i).sub i).state = .ended ∧ ((s.leaveTest i).sub i).reason = .left := by
  cases hnone : s.nothingOutstanding i with
  | true => exact .inr (leaveTest_left h hnone)
  | false =>
    unfold State.leaveTest
    rw [hnone, Bool.and_false]
    exact .inl h

/-! ### The command -/

theorem takeLeave_of_no_sub {w0 : Word} (h : 24 ≤ w0.toNat) (s : State) : takeLeave w0 s = s.finish .badArg 0 0 := by
  unfold takeLeave
  rw [subOfWord_of_le h]
  rfl

theorem takeLeave_of_not_consuming {w0 : Word} {i : SubIdx} {s : State} (hsub : w0.toNat = i.val)
    (h : (s.sub i).state = .free ∨ (s.sub i).state = .leaving ∨ (s.sub i).state = .ended) :
    takeLeave w0 s = s.finish .state 0 0 := by
  unfold takeLeave
  rw [subOfWord_of_eq hsub]
  rcases h with h | h | h <;> (dsimp only; rw [h]; rfl)

theorem takeLeave_of_entry {w0 : Word} {i : SubIdx} {s : State} (hsub : w0.toNat = i.val)
    (h : (s.sub i).state = .joining ∨ (s.sub i).state = .active ∨ (s.sub i).state = .finishing) :
    takeLeave w0 s = (settle ((s.finish .ok 0 0).enterLeaving i)).leaveTest i := by
  unfold takeLeave
  rw [subOfWord_of_eq hsub]
  rcases h with h | h | h <;> (dsimp only; rw [h])

/-- Settles O14. -/
theorem leaveOutcomes : Obligations.LeaveOutcomes := by
  intro w0 s hready u
  have hexec := exec_leave_of_ready hready w0
  refine ⟨fun h => ?_, fun i hsub => ⟨fun h => ?_, fun h => ?_⟩⟩
  · rw [hexec, takeLeave_of_no_sub h]
  · rw [hexec, takeLeave_of_not_consuming (s := s.args1 8 w0) hsub h]
  · rw [hexec, takeLeave_of_entry (s := s.args1 8 w0) hsub h]
    have hstate := enterLeaving_state ((s.args1 8 w0).finish .ok 0 0) i
    have hentered : Acts false ((s.args1 8 w0).finish .ok 0 0) _ := enterLeaving_acts _ i
    have hdeparted := fun h => enterLeaving_departed (s := (s.args1 8 w0).finish .ok 0 0) (i := i) h
    generalize ((s.args1 8 w0).finish .ok 0 0).enterLeaving i = v at *
    have hside := hentered.consumer.trans ((settle_consumerSide v).trans (leaveTest_consumerSide (settle v) i))
    refine ⟨_, rfl, ?_, ?_, ?_, leaveTest_outcome ((settle_moves v).state_of_leaving (by decide) hstate), fun hjoining => ?_,
      hside.pub, ?_, ?_⟩
    · rw [hside.lpc]
      rfl
    · rw [hside.lpc]
      rfl
    · rw [hside.lpc]
      rfl
    · obtain ⟨-, hpoll, hkeep, hrelease, hline, hpull, hblock, hissue, hfp, hap⟩ :=
        (leaveTest_moves (settle v) i).departed ((settle_moves v).departed (hdeparted hjoining))
      exact ⟨hpoll, hkeep, hrelease, hline, hpull, hblock, hissue, hfp, hap⟩
    · rw [hside.liu]
      rfl
    · unfold State.config
      rw [hside.lpc]
      rfl

end Sys2Proof.Machine
end

section
/-! PROOFS. FLUSH of one subscription (R77 to R79). -/
namespace Sys2Proof.Machine

theorem exec_flush_of_ready {s : State} (h : s.ready) (w0 : Word) :
    exec (.flush w0) s = .next (takeFlush w0 (s.args1 9 w0)) :=
  congrArg Host.Outcome.next (issue_one_word h (by decide) (by decide) w0)

/-! ### The flush of a subscription (R78) -/

/-- The record with its waiting FETCHes withdrawn and the next generation, before the cut. -/
def Sub.renewed (b : Sub) : Sub := { b.withdrawFetches with generation := b.generation + 1 }

/-- The marks of a flush. -/
def Sub.markedFlush (alone : Bool) (b : Sub) : Sub :=
  { b with flushPending := true, lineWait := false, flushOwed := b.flushOwed || alone }

/-- The record after R78. -/
def Sub.afterFlush (alone : Bool) (b : Sub) : Sub := (b.renewed.cutAt b.pp).markedFlush alone

theorem seqUpTo_self (x : Seq) : seqUpTo x x = true := by
  rw [seqUpTo_iff, BitVec.sub_self]
  decide

theorem renewed_cutAt_sub (s : State) (i : SubIdx) : ((s.modSub i Sub.renewed).cutAt i (s.sub i).pp).sub i =
    (s.sub i).renewed.cutAt (s.sub i).pp := by
  rw [cutAt_sub_self, sub_modSub_self]
  exact if_pos (seqUpTo_self (s.sub i).pp)

theorem flushSub_renewed (s : State) (i : SubIdx) (alone : Bool) : s.flushSub i alone =
    ((s.modSub i Sub.renewed).cutAt i ((s.modSub i Sub.renewed).sub i).pp).modSub i (Sub.markedFlush alone) := by
  unfold State.flushSub
  rfl

theorem flushSub_eq (s : State) (i : SubIdx) (alone : Bool) : s.flushSub i alone =
    ((s.modSub i Sub.renewed).cutAt i (s.sub i).pp).modSub i (Sub.markedFlush alone) := by
  have hpp : ((s.modSub i Sub.renewed).sub i).pp = (s.sub i).pp :=
    (congrArg Sub.pp (sub_modSub_self s i Sub.renewed)).trans rfl
  rw [flushSub_renewed, hpp]

theorem flushSub_sub (s : State) (i : SubIdx) (alone : Bool) : (s.flushSub i alone).sub i = (s.sub i).afterFlush alone := by
  rw [flushSub_eq, sub_modSub_self, renewed_cutAt_sub]
  rfl

theorem flushSub_sub_ne (s : State) {i j : SubIdx} (alone : Bool) (h : j ≠ i) : (s.flushSub i alone).sub j = s.sub j := by
  have hcut : ((s.modSub i Sub.renewed).cutAt i (s.sub i).pp).sub j = (s.modSub i Sub.renewed).sub j := by
    rw [sub_congr (cutAt_sub _ i _)]
    split
    · exact sub_modSub_ne _ _ h.symm
    · rfl
  rw [flushSub_eq, sub_modSub_ne _ _ h.symm, hcut, sub_modSub_ne _ _ h.symm]

theorem cut_ne_asked (e : Entry) : e.cut ≠ .asked := by cases e <;> exact Entry.noConfusion

theorem cut_ne_held (e : Entry) (im : Image) : e.cut ≠ .held im := by cases e <;> exact Entry.noConfusion

theorem entryAt_flushSub (s : State) (i : SubIdx) (alone : Bool) (q : Seq) : (s.flushSub i alone).entryAt i q =
    if ((s.sub i).afterFlush alone).needsGroup (groupOf q) then
      (if seqUpTo (s.sub i).pp q then (s.entryAt i q).cut else s.entryAt i q) else .empty := by
  have hcut := entryAt_cutAt (s := s.modSub i Sub.renewed) (i := i) (x := (s.sub i).pp)
    (by rw [sub_modSub_self]; exact seqUpTo_self _) q
  rw [sub_modSub_self] at hcut
  rw [flushSub_eq]
  exact hcut

/-- What lies at or beyond PP is given up. -/
theorem entryAt_flushSub_beyond {s : State} {i : SubIdx} {q : Seq} (alone : Bool) (hq : (q - (s.sub i).pp).toNat < 2147483648) :
    (s.flushSub i alone).entryAt i q ≠ .asked ∧ ∀ im, (s.flushSub i alone).entryAt i q ≠ .held im := by
  rw [entryAt_flushSub, if_pos ((seqUpTo_iff _ _).2 hq)]
  split
  · exact ⟨cut_ne_asked _, cut_ne_held _⟩
  · exact ⟨Entry.noConfusion, fun _ => Entry.noConfusion⟩

theorem afterFlush_pointers {b : Sub} (alone : Bool) (h : b.pointersOrdered) :
    (b.afterFlush alone).fp = b.pp ∧ (b.afterFlush alone).ap = b.pp := by
  obtain ⟨-, hfp, hap⟩ := h
  exact ⟨seqMin_at_start hfp, seqMin_at_start hap⟩

theorem afterFlush_needsGroup {b : Sub} {q : Seq} (alone : Bool) (h : b.pointersOrdered)
    (hq : (q - b.dp).toNat < (b.pp - b.dp).toNat) : (b.afterFlush alone).needsGroup (groupOf q) = true := by
  have hap := (afterFlush_pointers alone h).2
  have hdp : (b.afterFlush alone).dp = b.dp := rfl
  refine needsGroup_of_inRange ?_ ?_
  · rw [hap, hdp]
    exact hq
  · rw [hap, hdp]
    exact Nat.lt_trans h.1 (by decide)

theorem not_upTo_of_before {d p q : Seq} (hp : (p - d).toNat < 2147483648) (hq : (q - d).toNat < (p - d).toNat) :
    ¬ seqUpTo p q = true := by
  rw [seqUpTo_iff]
  bv_omega

/-- What lies in [DP, PP) is kept. -/
theorem entryAt_flushSub_before {s : State} {i : SubIdx} {q : Seq} (alone : Bool) (ho : (s.sub i).pointersOrdered)
    (hq : (q - (s.sub i).dp).toNat < ((s.sub i).pp - (s.sub i).dp).toNat) :
    (s.flushSub i alone).entryAt i q = s.entryAt i q := by
  rw [entryAt_flushSub, if_pos (afterFlush_needsGroup alone ho hq), if_neg (not_upTo_of_before ho.1 hq)]

/-- What R78 makes of the fields of the record. -/
theorem afterFlush_fields (b : Sub) (alone : Bool) : (b.afterFlush alone).generation = b.generation + 1 ∧
    (b.afterFlush alone).flushPending = true ∧ (b.afterFlush alone).lineWait = false ∧
    (b.afterFlush alone).claims = b.claims.filter (fun q => !q.isFetch) ∧
    (b.afterFlush alone).fetchesOut = b.fetchesInFlight ∧ (b.afterFlush alone).state = b.state ∧
    (b.afterFlush alone).dp = b.dp ∧ (b.afterFlush alone).pp = b.pp ∧ (b.afterFlush alone).kt = b.kt ∧
    (b.afterFlush alone).revision = b.revision :=
  ⟨rfl, rfl, rfl, rfl, rfl, rfl, rfl, rfl, rfl, rfl⟩

theorem flushSub_flushedTo (s : State) (i : SubIdx) (alone : Bool) : s.flushedTo (s.flushSub i alone) i := by
  obtain ⟨hgeneration, hpending, hline, hclaims, hout, hstate, hdp, hpp, hkt, hrevision⟩ := afterFlush_fields (s.sub i) alone
  unfold State.flushedTo
  rw [flushSub_sub]
  refine ⟨hgeneration, hpending, hline, hclaims, hout, hstate, hdp, hpp, hkt, hrevision, fun ho => ?_, fun q hq => ?_⟩
  · obtain ⟨hfp, hap⟩ := afterFlush_pointers alone ho
    exact ⟨hfp, hap, fun q hq => entryAt_flushSub_before alone ho hq⟩
  · exact entryAt_flushSub_beyond alone hq

/-! ### The completion test of a flush (R79) -/

/-- The record after the completion test. -/
def Sub.flushTested (b : Sub) : Sub :=
  if b.flushPending && b.fetchesOut == 0 then { b with flushPending := false, flushOwed := false, inFlushAll := false } else b

theorem payFlushNotice_sub (s : State) (i : SubIdx) (r : Byte) :
    (s.payFlushNotice i r).sub i = { s.sub i with flushOwed := false } := by
  unfold State.payFlushNotice State.postSub
  split
  · rw [sub_congr (post_subs _ _), sub_modSub_self]
  · rename_i h
    rw [Bool.not_eq_true] at h
    rw [← h]

theorem leaveFlushAll_sub (s : State) (i : SubIdx) : (s.leaveFlushAll i).sub i = { s.sub i with inFlushAll := false } := by
  unfold State.leaveFlushAll
  split
  · dsimp only
    split
    · rw [sub_congr (show (State.postFlushAll _).subs = _ from post_subs _ _), sub_modSub_self]
    · rw [sub_modSub_self]
  · rename_i h
    rw [Bool.not_eq_true] at h
    rw [← h]

theorem flushTest_sub (s : State) (i : SubIdx) : (s.flushTest i).sub i = (s.sub i).flushTested := by
  unfold State.flushTest Sub.flushTested
  split
  · rw [leaveFlushAll_sub, payFlushNotice_sub, sub_modSub_self]
  · rfl

theorem flushTest_of_outstanding {s : State} {i : SubIdx} (h : (s.sub i).fetchesOut ≠ 0) : s.flushTest i = s := by
  unfold State.flushTest
  rw [beq_eq_false_iff_ne.2 h, Bool.and_false]
  rfl

/-- FLUSH_DONE of one subscription, posted where there is room. -/
def flushDone (i : SubIdx) (generation : Byte) : Notice :=
  { kind := .flushDone, index := BitVec.ofNat 8 i.val, reason := 0, value := generation.setWidth 32 }

theorem flushTest_notices {s : State} {i : SubIdx} (hpending : (s.sub i).flushPending = true) (howed : (s.sub i).flushOwed = true)
    (hdone : (s.sub i).fetchesOut = 0) (hroom : s.lpc.notices.length < 64) :
    ∃ later, (s.flushTest i).lpc.notices = s.lpc.notices ++ flushDone i (s.sub i).generation :: later := by
  have hpaid : ((s.modSub i fun b => { b with flushPending := false }).payFlushNotice i 0).lpc.notices =
      s.lpc.notices ++ [flushDone i (s.sub i).generation] := by
    unfold State.payFlushNotice
    rw [if_pos (by rw [sub_modSub_self]; exact howed), sub_modSub_self]
    exact (congrArg (fun t : State => t.lpc.notices) (post_of_room (s := (s.modSub i fun b =>
      { b with flushPending := false }).modSub i fun b => { b with flushOwed := false }) _ hroom)).trans rfl
  unfold State.flushTest
  rw [if_pos (by rw [hpending, hdone]; rfl)]
  exact notices_of_posted (leaveFlushAll_acts _ i) hpaid

/-! ### The record after the flush and its completion test -/

theorem flushTested_kept (b : Sub) : b.flushTested.generation = b.generation ∧ b.flushTested.kt = b.kt ∧
    b.flushTested.revision = b.revision ∧ b.flushTested.state = b.state := by
  unfold Sub.flushTested
  split <;> exact ⟨rfl, rfl, rfl, rfl⟩

theorem flushTested_done {b : Sub} (hpending : b.flushPending = true) (hdone : b.fetchesOut = 0) :
    b.flushTested = { b with flushPending := false, flushOwed := false, inFlushAll := false } := by
  unfold Sub.flushTested
  rw [if_pos (by rw [hpending, hdone]; rfl)]

/-- No move makes a flush pending. -/
theorem Moves.flush_done {K : List Kind} {s t : State} (h : Moves K s t) {i : SubIdx} (hs : (s.sub i).flushPending = false) :
    (t.sub i).flushPending = false :=
  h.record (inv := fun b => b.flushPending = false) (fun _ _ b c hm hb => by
    cases hm with
    | same => exact hb
    | seek h => cases h <;> exact hb
    | supply _ h => cases h <;> exact hb
    | complete => rfl
    | depart => rfl
    | _ => exact hb) i hs

/-- A subscription in ACTIVE leaves its flush pending through every move. -/
theorem Moves.flush_pending {K : List Kind} {s t : State} (h : Moves K s t) {i : SubIdx} (hstate : (s.sub i).state = .active)
    (hs : (s.sub i).flushPending = true) : (t.sub i).flushPending = true :=
  (h.record (inv := fun b => b.state = .active ∧ b.flushPending = true) (fun _ _ b c hm hb => by
    obtain ⟨hstate, hpending⟩ := hb
    cases hm with
    | same => exact ⟨hstate, hpending⟩
    | seek h => cases h <;> exact ⟨hstate, hpending⟩
    | supply _ h => cases h <;> exact ⟨hstate, hpending⟩
    | complete _ hf => exact absurd (hstate.symm.trans hf) (by decide)
    | depart _ hl => exact absurd (hstate.symm.trans hl) (by decide)
    | _ => exact ⟨hstate, hpending⟩) i ⟨hstate, hs⟩).2

/-! ### The command -/

theorem takeFlush_of_no_sub {w0 : Word} (hall : w0 ≠ 255) (h : 24 ≤ w0.toNat) (s : State) :
    takeFlush w0 s = s.finish .badArg 0 0 := by
  unfold takeFlush takeFlushOne
  rw [if_neg hall, subOfWord_of_le h]
  rfl

theorem takeFlush_of_not_consuming {w0 : Word} {i : SubIdx} {s : State} (hall : w0 ≠ 255) (hsub : w0.toNat = i.val)
    (h : (s.sub i).state ≠ .active ∧ (s.sub i).state ≠ .finishing) : takeFlush w0 s = s.finish .state 0 0 := by
  unfold takeFlush takeFlushOne
  rw [if_neg hall, subOfWord_of_eq hsub]
  exact if_neg fun hc => ((consuming_iff _).1 hc).elim h.1 h.2

/-- The state after a FLUSH of one subscription, before its completion test. -/
def State.flushing (s : State) (i : SubIdx) : State :=
  (s.finish .ok (((s.sub i).generation + 1).setWidth 32) 0).flushSub i true

theorem takeFlush_of_consuming {w0 : Word} {i : SubIdx} {s : State} (hall : w0 ≠ 255) (hsub : w0.toNat = i.val)
    (h : (s.sub i).state = .active ∨ (s.sub i).state = .finishing) : takeFlush w0 s =
    ((lineWaitRound ((s.flushing i).flushTest i)).evaluate [i]).finishingTest i := by
  unfold takeFlush takeFlushOne
  rw [if_neg hall, subOfWord_of_eq hsub]
  exact if_pos ((consuming_iff _).2 h)

theorem flushedTo_congr {s v u : State} {i : SubIdx} (hsubs : v.subs = s.subs) (hlines : v.dpc.lines = s.dpc.lines)
    (h : v.flushedTo u i) : s.flushedTo u i := by
  unfold State.flushedTo at h ⊢
  rw [sub_congr hsubs i] at h
  simp only [entryAt_congr hlines] at h
  exact h

theorem flushing_flushedTo (s : State) (i : SubIdx) : s.flushedTo (s.flushing i) i :=
  flushedTo_congr (v := s.finish .ok (((s.sub i).generation + 1).setWidth 32) 0) rfl rfl (flushSub_flushedTo _ i true)

theorem flushing_sub (s : State) (i : SubIdx) : (s.flushing i).sub i = (s.sub i).afterFlush true :=
  flushSub_sub (s.finish .ok (((s.sub i).generation + 1).setWidth 32) 0) i true

theorem flushing_lpc (s : State) (i : SubIdx) : (s.flushing i).lpc = { s.lpc with
    res := 0, res0 := ((s.sub i).generation + 1).setWidth 32, res1 := 0, slot := .idle } :=
  (flushSub_cacheSide _ i true).lpc

theorem afterFlush_owed (b : Sub) : (b.afterFlush true).flushOwed = true := Bool.or_true _

/-- What follows the completion test of a flush, for a subscription that is not FINISHING: evaluations alone. -/
theorem afterFlush_notices {u : State} {i : SubIdx} (h : (u.sub i).state = .active) :
    (((lineWaitRound u).evaluate [i]).finishingTest i).lpc = u.lpc := by
  have hmoves := (lineWaitRound_moves u).trans (evaluate_moves _ [i])
  rw [finishingTest_of_not_finishing (by rw [(hmoves.seekSame i).state, h]; decide)]
  exact ((lineWaitRound_cacheSide u).trans (evaluate_cacheSide _ _)).lpc

theorem flushOutcomes : Part.FlushOutcomes := by
  intro w0 s hready hall u
  have hexec := exec_flush_of_ready hready w0
  refine ⟨fun h => ?_, fun i hsub => ⟨fun h => ?_, fun h => ?_⟩⟩
  · rw [hexec, takeFlush_of_no_sub hall h]
  · rw [hexec, takeFlush_of_not_consuming (s := s.args1 9 w0) hall hsub h]
  · rw [takeFlush_of_consuming (s := s.args1 9 w0) hall hsub h] at hexec
    have hflushed : s.flushedTo ((s.args1 9 w0).flushing i) i := flushing_flushedTo (s.args1 9 w0) i
    have hrecord : ((s.args1 9 w0).flushing i).sub i = (s.sub i).afterFlush true := flushing_sub (s.args1 9 w0) i
    have hport : ((s.args1 9 w0).flushing i).lpc = { s.lpc with
        cmd := 9, arg0 := w0, res := 0, res0 := ((s.sub i).generation + 1).setWidth 32, res1 := 0 } := by
      rw [flushing_lpc, ← hready.2]
      rfl
    obtain ⟨hpub, hstore⟩ : ((s.args1 9 w0).flushing i).pub = s.pub ∧
        ((s.args1 9 w0).flushing i).pdu.fill = s.pdu.fill ∧ ((s.args1 9 w0).flushing i).memory = s.memory := by
      have hside := flushSub_cacheSide ((s.args1 9 w0).finish .ok (((s.sub i).generation + 1).setWidth 32) 0) i true
      exact ⟨hside.pub, congrArg Pdu.fill hside.pdu, hside.memory⟩
    generalize (s.args1 9 w0).flushing i = v at *
    obtain ⟨hgeneration, hpending, -, -, hout, hstate, -, -, hkt, hrevision⟩ := afterFlush_fields (s.sub i) true
    rw [← hrecord] at hgeneration hpending hout hstate hkt hrevision
    have howed : (v.sub i).flushOwed = true := by rw [hrecord, afterFlush_owed]
    obtain ⟨hgeneration', hkt', hrevision', -⟩ := flushTested_kept (v.sub i)
    rw [← flushTest_sub] at hgeneration' hkt' hrevision'
    have hafter := afterDelivery_moves (v.flushTest i) i
    have htail := hafter.sameTail i
    have htest := flushTest_flushSide v i
    have hside := (flushTest_consumerSide v i).trans hafter.consumer
    obtain ⟨hmemory, hfill⟩ := hafter.store (by decide)
    refine ⟨v, _, hexec, rfl, hflushed, howed, hport, ?_, ?_, ?_, htail.generation.trans (hgeneration'.trans hgeneration),
      htail.kt.trans (hkt'.trans hkt), htail.revision.trans (hrevision'.trans hrevision), fun hfetch hactive => ?_, fun hfetch => ?_,
      hside.pub.trans hpub, ?_, ?_⟩
    · rw [hside.lpc, hport]
    · rw [hside.lpc, hport]
    · rw [hside.lpc, hport]
    · have hsame := flushTest_of_outstanding (s := v) (i := i) (by rw [hout]; exact hfetch)
      rw [hsame] at hafter htail ⊢
      refine ⟨hafter.flush_pending (hstate.trans hactive) hpending, htail.flushOwed.trans howed, ?_⟩
      rw [afterFlush_notices (hstate.trans hactive), hport]
    · have hdone := flushTested_done hpending (hout.trans hfetch)
      rw [← flushTest_sub] at hdone
      refine ⟨hafter.flush_done (by rw [hdone]), htail.flushOwed.trans (by rw [hdone]), fun hroom => ?_⟩
      have hnotices : v.lpc.notices = s.lpc.notices := by rw [hport]
      obtain ⟨later, hlater⟩ := flushTest_notices hpending howed (hout.trans hfetch) (by rw [hnotices]; exact hroom)
      obtain ⟨more, hmore⟩ := hafter.notices
      rw [hlater, hnotices, hgeneration] at hmore
      exact ⟨later ++ more, by rw [← hmore, List.append_assoc]; rfl⟩
    · rw [hfill, htest.pdu, hstore.1]
    · rw [hmemory, htest.memory, hstore.2]

end Sys2Proof.Machine
end

section
/-! PROOFS. FLUSH ALL and its notice (R80). -/
namespace Sys2Proof.Machine

theorem exec_flushAll_of_ready {s : State} (h : s.ready) : exec .flushAll s = .next (takeFlushAll (s.args1 9 255)) :=
  congrArg Host.Outcome.next (issue_one_word h (by decide) (by decide) 255)

/-! ### A change of one record after the other -/

theorem foldl_record {f : State → SubIdx → State} {g : Sub → Sub} (hne : ∀ s i j, j ≠ i → (f s i).sub j = s.sub j)
    (hself : ∀ s i, (f s i).sub i = g (s.sub i)) : ∀ {l : List SubIdx}, l.Nodup → ∀ (s : State) (j : SubIdx),
      (l.foldl f s).sub j = if j ∈ l then g (s.sub j) else s.sub j
  | [], _, _, _ => rfl
  | i :: l, hnodup, s, j => by
    obtain ⟨hi, hl⟩ := List.nodup_cons.1 hnodup
    rw [List.foldl_cons, foldl_record hne hself hl]
    by_cases h : j = i
    · subst h
      rw [if_neg hi, if_pos List.mem_cons_self, hself]
    · rw [hne s i j h]
      simp only [List.mem_cons, h, false_or]

theorem foldl_inv {α : Type} {f : State → α → State} {inv : State → Prop} (hf : ∀ s x, inv s → inv (f s x)) :
    ∀ (l : List α) (s : State), inv s → inv (l.foldl f s)
  | [], _, h => h
  | x :: l, s, h => foldl_inv hf l (f s x) (hf s x h)

/-! ### The set -/

theorem mem_flushable (s : State) (i : SubIdx) : i ∈ s.flushable ↔ (s.sub i).flushed := by
  unfold State.flushable
  rw [List.mem_filter, consuming_iff]
  exact and_iff_right (List.mem_finRange i)

theorem flushable_nodup (s : State) : s.flushable.Nodup := (List.nodup_finRange 24).filter _

/-- The record of a subscription in the flush-all set. -/
def Sub.inSet (b : Sub) : Sub := { b with inFlushAll := true }

/-- The record after the flush of a subscription of the set, and its completion test. -/
def Sub.flushedInSet (b : Sub) : Sub := (b.afterFlush false).flushTested

theorem addToFlushAll_sub_self (s : State) (i : SubIdx) : (addToFlushAll s i).sub i = (s.sub i).inSet := by
  refine (sub_modSub_self (countFlushed s i) i _).trans ?_
  unfold countFlushed
  split <;> rfl

theorem addToFlushAll_sub_ne (s : State) (i j : SubIdx) (h : j ≠ i) : (addToFlushAll s i).sub j = s.sub j := by
  refine (sub_modSub_ne (countFlushed s i) _ h.symm).trans ?_
  unfold countFlushed
  split <;> rfl

theorem addToFlushAll_added (s : State) (i : SubIdx) : (addToFlushAll s i).dpc.flushAdded =
    if i ∈ s.dpc.flushAdded then s.dpc.flushAdded else s.dpc.flushAdded ++ [i] := by
  change (countFlushed s i).dpc.flushAdded = _
  unfold countFlushed
  split <;> rfl

/-- Each subscription is counted once. -/
theorem addedToFlushAll : ∀ (l : List SubIdx) (s : State), s.dpc.flushAdded.Nodup →
    (l.foldl addToFlushAll s).dpc.flushAdded.Nodup ∧
      ∀ j, j ∈ (l.foldl addToFlushAll s).dpc.flushAdded ↔ j ∈ s.dpc.flushAdded ∨ j ∈ l
  | [], s, h => ⟨h, fun j => by simp⟩
  | i :: l, s, h => by
    have hadded := addToFlushAll_added s i
    have hnodup : (addToFlushAll s i).dpc.flushAdded.Nodup := by
      rw [hadded]
      split
      · exact h
      · rename_i hi
        exact List.nodup_append.2 ⟨h, List.nodup_singleton i, fun a ha b hb => by
          rintro rfl
          exact hi (List.mem_singleton.1 hb ▸ ha)⟩
    obtain ⟨hrest, hmem⟩ := addedToFlushAll l (addToFlushAll s i) hnodup
    refine ⟨hrest, fun j => (hmem j).trans ?_⟩
    rw [hadded, List.mem_cons, ← or_assoc]
    refine or_congr_left ?_
    split
    · rename_i hi
      exact ⟨.inl, fun hj => hj.elim id fun e => e ▸ hi⟩
    · rw [List.mem_append, List.mem_singleton]

/-- From an empty count, the subscriptions that are added are the count. -/
theorem addedToFlushAll_of_new : ∀ (l : List SubIdx) (s : State), l.Nodup → (∀ i ∈ l, i ∉ s.dpc.flushAdded) →
    (l.foldl addToFlushAll s).dpc.flushAdded = s.dpc.flushAdded ++ l
  | [], s, _, _ => (List.append_nil _).symm
  | i :: l, s, hnodup, hnew => by
    obtain ⟨hi, hl⟩ := List.nodup_cons.1 hnodup
    have hadded : (addToFlushAll s i).dpc.flushAdded = s.dpc.flushAdded ++ [i] := by
      rw [addToFlushAll_added, if_neg (hnew i List.mem_cons_self)]
    rw [List.foldl_cons, addedToFlushAll_of_new l _ hl fun j hj => ?_, hadded, List.append_assoc]
    · rfl
    · rw [hadded, List.mem_append, List.mem_singleton]
      rintro (h | rfl)
      · exact hnew j (List.mem_cons_of_mem i hj) h
      · exact hi hj

/-! ### The steps of FLUSH ALL -/

/-- The state with the set: the subscriptions are added to it, and the notice is posted where it stays empty. -/
def State.flushAllBegun (s : State) : State :=
  let u := s.flushable.foldl addToFlushAll (s.finish .ok (BitVec.ofNat 32 s.flushable.length) 0)
  if s.flushable.isEmpty && u.flushAllEmpty then u.postFlushAll else u

/-- R78 and the completion test for one subscription of the set. -/
def State.flushStep (s : State) (i : SubIdx) : State := (s.flushSub i false).flushTest i

/-- What follows the flushes. -/
def State.afterFlushes (s : State) (is : List SubIdx) : State := is.foldl State.finishingTest ((lineWaitRound s).evaluate is)

theorem takeFlushAll_eq (s : State) :
    takeFlushAll s = (s.flushable.foldl State.flushStep s.flushAllBegun).afterFlushes s.flushable := rfl

theorem flushStep_sub_self (s : State) (i : SubIdx) : (s.flushStep i).sub i = (s.sub i).flushedInSet := by
  unfold State.flushStep
  rw [flushTest_sub, flushSub_sub]
  rfl

theorem flushStep_sub_ne (s : State) (i j : SubIdx) (h : j ≠ i) : (s.flushStep i).sub j = s.sub j :=
  ((flushTest_flushSide _ i).others j h).trans (flushSub_sub_ne s false h)

theorem flushStep_acts (s : State) (i : SubIdx) : Acts own s (s.flushStep i) := (flushSub_acts s i false).trans (flushTest_acts _ i)

theorem flushStep_store (s : State) (i : SubIdx) : (s.flushStep i).memory = s.memory ∧ (s.flushStep i).pdu = s.pdu := by
  have hflush := flushSub_cacheSide s i false
  have htest := flushTest_flushSide (s.flushSub i false) i
  exact ⟨htest.memory.trans hflush.memory, htest.pdu.trans hflush.pdu⟩

theorem afterFlushes_moves (s : State) (is : List SubIdx) : Moves [.seek, .supply, .complete] s (s.afterFlushes is) :=
  (((lineWaitRound_moves s).trans (evaluate_moves _ _)).mono (by decide)).trans (Moves.foldl finishingTest_moves _ _)

theorem flushAllBegun_acts (s : State) :
    Acts own (s.finish .ok (BitVec.ofNat 32 s.flushable.length) 0) s.flushAllBegun :=
  (Acts.foldl addToFlushAll_acts _ _).trans (Acts.ite (fun _ => postFlushAll_acts _) fun _ => .refl _)

theorem flushAllBegun_sub (s : State) (j : SubIdx) : s.flushAllBegun.sub j =
    if j ∈ s.flushable then (s.sub j).inSet else s.sub j := by
  have hadded := foldl_record (g := Sub.inSet) addToFlushAll_sub_ne addToFlushAll_sub_self (flushable_nodup s)
    (s.finish .ok (BitVec.ofNat 32 s.flushable.length) 0) j
  unfold State.flushAllBegun
  dsimp only
  split
  · exact (sub_congr (post_subs _ _) j).trans hadded
  · exact hadded

theorem flushAllBegun_store (s : State) : s.flushAllBegun.memory = s.memory ∧ s.flushAllBegun.pdu = s.pdu := by
  have hadded := foldl_inv (inv := fun t => t.memory = s.memory ∧ t.pdu = s.pdu) (f := addToFlushAll) (fun t i h => by
    unfold addToFlushAll countFlushed
    split <;> exact h) s.flushable (s.finish .ok (BitVec.ofNat 32 s.flushable.length) 0) ⟨rfl, rfl⟩
  unfold State.flushAllBegun
  dsimp only
  split
  · exact ⟨(post_memory _ _).trans hadded.1, (post_pdu _ _).trans hadded.2⟩
  · exact hadded

/-- The state after the flushes. -/
def State.flushedAll (s : State) : State := s.flushable.foldl State.flushStep s.flushAllBegun

/-- The record of a subscription after the flushes. -/
theorem flushedAll_sub (s : State) (j : SubIdx) : s.flushedAll.sub j =
    if j ∈ s.flushable then (s.sub j).inSet.flushedInSet else s.sub j := by
  unfold State.flushedAll
  rw [foldl_record (g := Sub.flushedInSet) flushStep_sub_ne flushStep_sub_self (flushable_nodup s), flushAllBegun_sub]
  split <;> rfl

theorem flushedAll_acts (s : State) : Acts own (s.finish .ok (BitVec.ofNat 32 s.flushable.length) 0) s.flushedAll :=
  (flushAllBegun_acts s).trans (Acts.foldl flushStep_acts _ _)

theorem flushedAll_store (s : State) : s.flushedAll.memory = s.memory ∧ s.flushedAll.pdu = s.pdu :=
  foldl_inv (inv := fun t => t.memory = s.memory ∧ t.pdu = s.pdu) (fun t i h => by
    obtain ⟨hmemory, hpdu⟩ := flushStep_store t i
    exact ⟨hmemory.trans h.1, hpdu.trans h.2⟩) _ _ (flushAllBegun_store s)

theorem flushedInSet_generation (b : Sub) : b.flushedInSet.generation = b.generation + 1 :=
  ((flushTested_kept _).1).trans (afterFlush_fields b false).1

/-- A subscription of the set with a FETCH in flight: its completion test does nothing. -/
theorem flushedInSet_of_outstanding {b : Sub} (h : b.fetchesInFlight ≠ 0) : b.flushedInSet = b.afterFlush false := by
  have hout : (b.afterFlush false).fetchesOut ≠ 0 := h
  unfold Sub.flushedInSet Sub.flushTested
  rw [beq_eq_false_iff_ne.2 hout, Bool.and_false]
  rfl

theorem flushedInSet_done {b : Sub} (h : b.fetchesInFlight = 0) :
    b.flushedInSet.flushPending = false ∧ b.flushedInSet.inFlushAll = false := by
  have hdone : b.flushedInSet = _ := flushTested_done (b := b.afterFlush false) rfl h
  rw [hdone]
  exact ⟨rfl, rfl⟩

theorem afterFlush_owed_alone (b : Sub) : (b.afterFlush false).flushOwed = b.flushOwed := Bool.or_false b.flushOwed

theorem afterFlush_out (b : Sub) (alone : Bool) : (b.afterFlush alone).fetchesOut = b.fetchesInFlight := rfl

theorem afterFlush_inSet (b : Sub) : (b.afterFlush false).inFlushAll = b.inFlushAll := rfl

/-- Without a departure, a state other than FINISHING stays. -/
theorem Moves.state_of_not_finishing {K : List Kind} (hK : Kind.depart ∉ K) {s t : State} (h : Moves K s t) {i : SubIdx}
    (hs : (s.sub i).state ≠ .finishing) : (t.sub i).state = (s.sub i).state := by
  by_cases hleaving : (s.sub i).state = .leaving
  · exact (h.state_of_leaving hK hleaving).trans hleaving.symm
  · exact h.state_of_steady rfl hs hleaving

theorem flushAllOutcomes : Part.FlushAllOutcomes := by
  intro s hready
  have hexec := exec_flushAll_of_ready hready
  rw [takeFlushAll_eq] at hexec
  have hafter : Moves [.seek, .supply, .complete] (s.args1 9 255).flushedAll _ := afterFlushes_moves _ (s.args1 9 255).flushable
  have hrecord : ∀ j, (s.sub j).flushed → (s.args1 9 255).flushedAll.sub j = (s.sub j).inSet.flushedInSet :=
    fun j h => (flushedAll_sub (s.args1 9 255) j).trans (if_pos ((mem_flushable _ j).2 h))
  have hothers : ∀ j, ¬ (s.sub j).flushed → (s.args1 9 255).flushedAll.sub j = s.sub j :=
    fun j h => (flushedAll_sub (s.args1 9 255) j).trans (if_neg fun e => h ((mem_flushable _ j).1 e))
  have hside := (flushedAll_acts (own := false) (s.args1 9 255)).consumer.trans hafter.consumer
  obtain ⟨hmemory, hpdu⟩ := flushedAll_store (s.args1 9 255)
  change exec .flushAll s = .next ((s.args1 9 255).flushedAll.afterFlushes (s.args1 9 255).flushable) at hexec
  generalize (s.args1 9 255).flushedAll.afterFlushes (s.args1 9 255).flushable = t at *
  generalize (s.args1 9 255).flushedAll = v at *
  refine ⟨t, hexec, ?_, ?_, ?_, fun i h => ?_, fun i hactive hfinishing => ?_, fun i h hfetch => ?_, fun i h hfetch => ?_,
    hside.pub, ?_, ?_⟩
  · rw [hside.lpc]
    rfl
  · rw [hside.lpc]
    rfl
  · rw [hside.lpc]
    rfl
  · rw [(hafter.sameTail i).generation, hrecord i h, flushedInSet_generation]
    rfl
  · have hsame := hothers i fun h => h.elim hactive hfinishing
    refine ⟨by rw [(hafter.sameTail i).generation, hsame], ?_⟩
    rw [hafter.state_of_not_finishing (by decide) (by rw [hsame]; exact hfinishing), hsame]
  · have hsame := (hrecord i (.inl h)).trans (flushedInSet_of_outstanding (b := (s.sub i).inSet) hfetch)
    obtain ⟨-, hpending, -, -, -, hstate, -⟩ := afterFlush_fields (s.sub i).inSet false
    have hset := afterFlush_inSet (s.sub i).inSet
    have howed := afterFlush_owed_alone (s.sub i).inSet
    rw [← hsame] at hpending hset howed hstate
    exact ⟨hafter.flush_pending (hstate.trans h) hpending, (hafter.sameTail i).inFlushAll.trans hset,
      (hafter.sameTail i).flushOwed.trans howed⟩
  · obtain ⟨hpending, hset⟩ := flushedInSet_done (b := (s.sub i).inSet) hfetch
    rw [← hrecord i h] at hpending hset
    exact ⟨hafter.flush_done hpending, (hafter.sameTail i).inFlushAll.trans hset⟩
  · rw [(hafter.store (by decide)).2, hpdu]
    rfl
  · rw [(hafter.store (by decide)).1, hmemory]
    rfl

/-! ### The added count -/

theorem completeFinishing_added (s : State) (i : SubIdx) : (s.completeFinishing i).dpc.flushAdded = s.dpc.flushAdded := by
  unfold State.completeFinishing State.postSub
  rw [post_dpc]
  exact (congrArg Dpc.flushAdded (placeOneOff_dpc _ _)).trans rfl

theorem completeLeave_added (s : State) (i : SubIdx) : (s.completeLeave i).dpc.flushAdded = s.dpc.flushAdded := by
  unfold State.completeLeave State.postSub
  rw [post_dpc]
  exact (congrArg Dpc.flushAdded (placeOneOff_dpc _ _)).trans rfl

/-- The moves do not touch the added count. -/
theorem Move.added {k : Kind} {s t : State} (h : Move k s t) : t.dpc.flushAdded = s.dpc.flushAdded := by
  cases h with
  | complete s i => exact completeFinishing_added s i
  | deliver s i =>
    rw [writeRecord_eq]
    rfl
  | depart s i => exact completeLeave_added s i
  | _ => rfl

theorem Moves.added {K : List Kind} {s t : State} (h : Moves K s t) : t.dpc.flushAdded = s.dpc.flushAdded :=
  h.keeps (inv := fun t => t.dpc.flushAdded = s.dpc.flushAdded) (fun _ _ _ _ hm hs => hm.added.trans hs) rfl

theorem flushSub_added (s : State) (i : SubIdx) (alone : Bool) : (s.flushSub i alone).dpc.flushAdded = s.dpc.flushAdded := by
  rw [flushSub_eq]
  exact (cutAt_moves (s.modSub i Sub.renewed) i (s.sub i).pp).added

theorem cutAt_ended (s : State) (i : SubIdx) (x : Seq) : (s.cutAt i x).dpc.flushEnded = s.dpc.flushEnded := by
  unfold State.cutAt
  split
  · dsimp only
    rw [trimLines_linesOnly]
    rfl
  · rfl

theorem flushSub_ended (s : State) (i : SubIdx) (alone : Bool) : (s.flushSub i alone).dpc.flushEnded = s.dpc.flushEnded := by
  rw [flushSub_eq]
  exact cutAt_ended (s.modSub i Sub.renewed) i (s.sub i).pp

theorem payFlushNotice_dpc (s : State) (i : SubIdx) (r : Byte) : (s.payFlushNotice i r).dpc = s.dpc := by
  unfold State.payFlushNotice State.postSub
  split
  · exact post_dpc _ _
  · rfl

theorem flushAllEmpty_iff (s : State) : s.flushAllEmpty = true ↔ ∀ j, (s.sub j).inFlushAll = false := by
  unfold State.flushAllEmpty
  rw [List.all_eq_true]
  constructor
  · intro h j
    have := h (s.sub j) (Vector.mem_toList_iff.2 (Vector.getElem_mem j.isLt))
    simpa using this
  · intro h b hb
    obtain ⟨k, hk, rfl⟩ := Vector.getElem_of_mem (Vector.mem_toList_iff.1 hb)
    rw [show s.subs[k] = s.sub ⟨k, hk⟩ from rfl, h ⟨k, hk⟩]
    rfl

/-- Where another subscription stays in the set, its notice is not posted. -/
theorem leaveFlushAll_of_other {s : State} {i j : SubIdx} (hj : j ≠ i) (hset : (s.sub j).inFlushAll = true) :
    (s.leaveFlushAll i).dpc = s.dpc := by
  have hne : ((s.modSub i fun b => { b with inFlushAll := false }).flushAllEmpty) ≠ true := fun h => by
    have := (flushAllEmpty_iff _).1 h j
    rw [sub_modSub_ne _ _ hj.symm, hset] at this
    exact Bool.noConfusion this
  unfold State.leaveFlushAll
  split
  · dsimp only
    rw [if_neg hne]
    rfl
  · rfl

theorem flushTest_of_other {s : State} {i j : SubIdx} (hj : j ≠ i) (hset : (s.sub j).inFlushAll = true) :
    (s.flushTest i).dpc = s.dpc := by
  have hpaid : (((s.modSub i fun b => { b with flushPending := false }).payFlushNotice i 0).sub j).inFlushAll = true := by
    rw [(payFlushNotice_flushSide _ i 0).others j hj, sub_modSub_ne _ _ hj.symm, hset]
  unfold State.flushTest
  split
  · exact (leaveFlushAll_of_other hj hpaid).trans (payFlushNotice_dpc _ _ _)
  · rfl

theorem afterFlush_inFlight (b : Sub) (alone : Bool) : (b.afterFlush alone).fetchesInFlight = b.fetchesInFlight := by
  have hnone : ((b.claims.filter fun q => !q.isFetch).filter Request.isFetch) = [] := by
    rw [List.filter_filter, List.filter_eq_nil_iff]
    intro q _
    cases q.isFetch <;> decide
  have hlen : ((b.afterFlush alone).claims.filter Request.isFetch).length = 0 := congrArg List.length hnone
  unfold Sub.fetchesInFlight at hlen ⊢
  rw [hlen]
  rfl

/-- A subscription of the set with a FETCH in flight keeps the count through the flushes. -/
theorem flushSteps_added {k : SubIdx} {added : List SubIdx} (l : List SubIdx) {s : State} (hs : s.dpc.flushAdded = added)
    (hset : (s.sub k).inFlushAll = true) (hfetch : (s.sub k).fetchesInFlight ≠ 0) :
    (l.foldl State.flushStep s).dpc.flushAdded = added := by
  refine (foldl_inv (inv := fun t => t.dpc.flushAdded = added ∧ (t.sub k).inFlushAll = true ∧ (t.sub k).fetchesInFlight ≠ 0)
    (fun t i h => ?_) l s ⟨hs, hset, hfetch⟩).1
  obtain ⟨hadded, hset, hfetch⟩ := h
  by_cases hk : k = i
  · subst hk
    have hsame : t.flushStep k = t.flushSub k false := flushTest_of_outstanding (by rw [flushSub_sub, afterFlush_out]; exact hfetch)
    rw [hsame, flushSub_added, flushSub_sub]
    exact ⟨hadded, by rw [afterFlush_inSet]; exact hset, by rw [afterFlush_inFlight]; exact hfetch⟩
  · have hflushed : ((t.flushSub i false).sub k).inFlushAll = true := by rw [flushSub_sub_ne t false hk, hset]
    rw [flushStep_sub_ne t i k hk]
    refine ⟨?_, hset, hfetch⟩
    have hdpc : (t.flushStep i).dpc = (t.flushSub i false).dpc := flushTest_of_other hk hflushed
    rw [hdpc, flushSub_added, hadded]

theorem flushAllBegun_of_some {s : State} {i : SubIdx} (h : (s.sub i).flushed) : s.flushAllBegun =
    s.flushable.foldl addToFlushAll (s.finish .ok (BitVec.ofNat 32 s.flushable.length) 0) := by
  have hne : s.flushable.isEmpty = false := by
    rw [List.isEmpty_eq_false_iff]
    exact List.ne_nil_of_mem ((mem_flushable s i).2 h)
  unfold State.flushAllBegun
  dsimp only
  rw [hne]
  rfl

/-- The state that FLUSH ALL leads to. -/
def State.flushAllDone (s : State) : State := s.flushedAll.afterFlushes s.flushable

theorem exec_flushAll {s : State} (h : s.ready) : exec .flushAll s = .next (s.args1 9 255).flushAllDone := exec_flushAll_of_ready h

theorem flushAllDone_moves (s : State) : Moves [.seek, .supply, .complete] s.flushedAll s.flushAllDone := afterFlushes_moves _ _

/-- With a FETCH in flight somewhere, the count stands after the command. -/
theorem flushAllDone_added {s : State} {i : SubIdx} (hactive : (s.sub i).state = .active) (hfetch : (s.sub i).fetchesInFlight ≠ 0) :
    s.flushAllDone.dpc.flushAdded =
      (s.flushable.foldl addToFlushAll (s.finish .ok (BitVec.ofNat 32 s.flushable.length) 0)).dpc.flushAdded := by
  have hbegun := flushAllBegun_of_some (s := s) (i := i) (.inl hactive)
  have hrecord : s.flushAllBegun.sub i = (s.sub i).inSet :=
    (flushAllBegun_sub s i).trans (if_pos ((mem_flushable s i).2 (.inl hactive)))
  rw [(flushAllDone_moves s).added, ← hbegun]
  exact flushSteps_added s.flushable rfl (by rw [hrecord]; rfl) (by rw [hrecord]; exact hfetch)

/-! ### The notice -/

/-- The notice of the flush-all set, its ended mark not set. -/
def flushAllDoneNotice (n : Nat) : Notice := { kind := .flushDone, index := 255, reason := 0, value := BitVec.ofNat 32 n }

theorem postFlushAll_of_room {s : State} (hended : s.dpc.flushEnded = false) (hroom : s.lpc.notices.length < 64) :
    s.postFlushAll.dpc.flushAdded = [] ∧
      flushAllDoneNotice s.dpc.flushAdded.length ∈ s.postFlushAll.lpc.notices := by
  have hpost := post_of_room (s := s) (flushAllDoneNotice s.dpc.flushAdded.length) hroom
  unfold State.postFlushAll
  rw [hended]
  refine ⟨rfl, ?_⟩
  change _ ∈ (s.post (flushAllDoneNotice s.dpc.flushAdded.length)).lpc.notices
  rw [hpost]
  exact List.mem_append_right _ List.mem_cons_self

theorem payFlushNotice_notices (s : State) (i : SubIdx) (r : Byte) :
    (s.payFlushNotice i r).lpc.notices.length ≤ s.lpc.notices.length + 1 := by
  unfold State.payFlushNotice State.postSub State.post
  split
  · split
    · exact Nat.le_of_eq (List.length_append.trans rfl)
    · exact Nat.le_succ _
  · exact Nat.le_succ _

/-- A step of FLUSH ALL for a subscription of the set with no FETCH in flight, but for what the set's end leads to. -/
def State.stepped (s : State) (i : SubIdx) : State :=
  (((s.flushSub i false).modSub i fun b => { b with flushPending := false }).payFlushNotice i 0).modSub i fun b =>
    { b with inFlushAll := false }

theorem flushStep_of_done {s : State} {i : SubIdx} (hset : (s.sub i).inFlushAll = true) (hfetch : (s.sub i).fetchesInFlight = 0) :
    s.flushStep i = if (s.stepped i).flushAllEmpty then (s.stepped i).postFlushAll else s.stepped i := by
  have hin : ((((s.flushSub i false).modSub i fun b => { b with flushPending := false }).payFlushNotice i 0).sub i).inFlushAll =
      true := by
    rw [payFlushNotice_sub, sub_modSub_self, flushSub_sub]
    exact (afterFlush_inSet _).trans hset
  have htest : (((s.flushSub i false).sub i).flushPending && ((s.flushSub i false).sub i).fetchesOut == 0) = true := by
    rw [flushSub_sub, afterFlush_out, hfetch]
    rfl
  unfold State.flushStep State.flushTest
  rw [if_pos htest]
  unfold State.leaveFlushAll
  rw [if_pos hin]
  rfl

theorem stepped_sub_self (s : State) (i : SubIdx) : ((s.stepped i).sub i).inFlushAll = false :=
  congrArg Sub.inFlushAll (sub_modSub_self _ _ _)

theorem stepped_sub_ne (s : State) {i j : SubIdx} (h : j ≠ i) : (s.stepped i).sub j = s.sub j := by
  unfold State.stepped
  rw [sub_modSub_ne _ _ h.symm, (payFlushNotice_flushSide _ i 0).others j h, sub_modSub_ne _ _ h.symm, flushSub_sub_ne s false h]

theorem stepped_rest (s : State) (i : SubIdx) : (s.stepped i).dpc.flushAdded = s.dpc.flushAdded ∧
    (s.stepped i).dpc.flushEnded = s.dpc.flushEnded ∧ (s.stepped i).lpc.notices.length ≤ s.lpc.notices.length + 1 := by
  have hdpc : (s.stepped i).dpc = (s.flushSub i false).dpc := payFlushNotice_dpc _ i 0
  have hlen := payFlushNotice_notices ((s.flushSub i false).modSub i fun b => { b with flushPending := false }) i 0
  have hlpc : (s.flushSub i false).lpc.notices = s.lpc.notices := congrArg Lpc.notices (flushSub_cacheSide s i false).lpc
  refine ⟨?_, ?_, ?_⟩
  · rw [hdpc, flushSub_added]
  · rw [hdpc, flushSub_ended]
  · exact hlpc ▸ hlen

/-- The flushes of a set without a FETCH in flight: the last one posts the notice and clears the count. -/
theorem flushSteps_post {added : List SubIdx} : ∀ (l : List SubIdx) (s : State), l ≠ [] → l.Nodup →
    (∀ j, (s.sub j).inFlushAll = true ↔ j ∈ l) → (∀ j ∈ l, (s.sub j).fetchesInFlight = 0) → s.dpc.flushAdded = added →
    s.dpc.flushEnded = false → s.lpc.notices.length + l.length + 1 ≤ 64 →
    (l.foldl State.flushStep s).dpc.flushAdded = [] ∧
      flushAllDoneNotice added.length ∈ (l.foldl State.flushStep s).lpc.notices
  | [], _, hne, _, _, _, _, _, _ => absurd rfl hne
  | i :: l, s, _, hnodup, hset, hfetch, hadded, hended, hroom => by
    obtain ⟨hi, hl⟩ := List.nodup_cons.1 hnodup
    obtain ⟨hadded', hended', hlen⟩ := stepped_rest s i
    rw [List.length_cons] at hroom
    have hsub := fun j (hj : j ≠ i) => stepped_sub_ne s hj
    have hrest : ∀ j, ((s.stepped i).sub j).inFlushAll = true ↔ j ∈ l := fun j => by
      by_cases hj : j = i
      · subst hj
        rw [stepped_sub_self]
        exact iff_of_false Bool.false_ne_true hi
      · rw [hsub j hj, hset j, List.mem_cons, or_iff_right hj]
    rw [List.foldl_cons, flushStep_of_done ((hset i).2 List.mem_cons_self) (hfetch i List.mem_cons_self)]
    cases l with
    | nil =>
      have hempty : (s.stepped i).flushAllEmpty = true :=
        (flushAllEmpty_iff _).2 fun j => Bool.eq_false_iff.2 fun h => absurd ((hrest j).1 h) List.not_mem_nil
      rw [if_pos hempty, List.foldl_nil, ← hadded, ← hadded']
      exact postFlushAll_of_room (hended'.trans hended) (by omega)
    | cons k l =>
      have hkept : ¬ (s.stepped i).flushAllEmpty = true := fun h => by
        have := (flushAllEmpty_iff _).1 h k
        rw [(hrest k).2 List.mem_cons_self] at this
        exact Bool.noConfusion this
      rw [if_neg hkept]
      refine flushSteps_post (k :: l) _ (List.cons_ne_nil k l) hl hrest (fun j hj => ?_) (hadded'.trans hadded)
        (hended'.trans hended) (by omega)
      rw [hsub j fun e => hi (e ▸ hj)]
      exact hfetch j (List.mem_cons_of_mem i hj)

/-- FLUSH ALL of a set that was empty, with no FETCH in flight. -/
theorem flushAllDone_posts {s : State} (hset : ∀ i, (s.sub i).inFlushAll = false) (hadded : s.dpc.flushAdded = [])
    (hended : s.dpc.flushEnded = false) (hsome : ∃ i, (s.sub i).flushed)
    (hfetch : ∀ i, (s.sub i).flushed → (s.sub i).fetchesInFlight = 0) (hroom : s.lpc.notices.length + 25 ≤ 64) :
    s.flushAllDone.dpc.flushAdded = [] ∧ flushAllDoneNotice s.flushable.length ∈ s.flushAllDone.lpc.notices := by
  obtain ⟨i, hi⟩ := hsome
  have hbegun := flushAllBegun_of_some hi
  have hrecord := flushAllBegun_sub s
  have hcount : s.flushAllBegun.dpc.flushAdded = s.flushable := by
    rw [hbegun]
    refine (addedToFlushAll_of_new s.flushable (s.finish .ok (BitVec.ofNat 32 s.flushable.length) 0) (flushable_nodup s)
      fun j _ => ?_).trans ?_
    · change j ∉ s.dpc.flushAdded
      rw [hadded]
      exact List.not_mem_nil
    · change s.dpc.flushAdded ++ _ = _
      rw [hadded, List.nil_append]
  have hrest : s.flushAllBegun.dpc.flushEnded = false ∧ s.flushAllBegun.lpc.notices = s.lpc.notices := by
    rw [hbegun]
    refine foldl_inv (inv := fun t => t.dpc.flushEnded = false ∧ t.lpc.notices = s.lpc.notices) (fun t j h => ?_) _ _ ⟨hended, rfl⟩
    unfold addToFlushAll countFlushed
    split <;> exact h
  have hlen : s.flushable.length ≤ 24 := (List.length_filter_le _ _).trans (by rw [List.length_finRange])
  have hin : ∀ j, (s.flushAllBegun.sub j).inFlushAll = true ↔ j ∈ s.flushable := fun j => by
    rw [hrecord j]
    split
    · rename_i h
      exact iff_of_true rfl h
    · rename_i h
      rw [hset j]
      exact iff_of_false Bool.false_ne_true h
  have hdone : ∀ j ∈ s.flushable, (s.flushAllBegun.sub j).fetchesInFlight = 0 := fun j hj => by
    rw [hrecord j, if_pos hj]
    exact hfetch j ((mem_flushable s j).1 hj)
  obtain ⟨hempty, hposted⟩ := flushSteps_post (added := s.flushable) s.flushable s.flushAllBegun
    (List.ne_nil_of_mem ((mem_flushable s i).2 hi)) (flushable_nodup s) hin hdone hcount hrest.1 (by rw [hrest.2]; omega)
  have hmoves := flushAllDone_moves s
  exact ⟨hmoves.added.trans hempty, hmoves.notices.subset hposted⟩

/-- The notice of a set whose count is empty and whose mark is not set clears nothing. -/
theorem postFlushAll_of_none {s : State} (hadded : s.dpc.flushAdded = []) (hended : s.dpc.flushEnded = false) :
    s.postFlushAll = s.post (flushAllDoneNotice 0) := by
  have hdpc : ({ s.dpc with flushAdded := [], flushEnded := false } : Dpc) = s.dpc := by rw [← hadded, ← hended]
  have hkept : { s.post (flushAllDoneNotice 0) with dpc := { (s.post (flushAllDoneNotice 0)).dpc with
      flushAdded := [], flushEnded := false } } = s.post (flushAllDoneNotice 0) := by
    rw [post_dpc, hdpc, ← post_dpc s (flushAllDoneNotice 0)]
  unfold State.postFlushAll
  rw [hadded, hended]
  exact hkept

/-- FLUSH ALL with nothing to flush: the notice at once, with value 0. -/
theorem flushAllDone_of_nothing {s : State} (hset : ∀ i, (s.sub i).inFlushAll = false) (hadded : s.dpc.flushAdded = [])
    (hended : s.dpc.flushEnded = false) (hnone : ∀ i, ¬ (s.sub i).flushed) (hwait : ∀ i, (s.sub i).lineWait = false) :
    s.flushAllDone = (s.finish .ok 0 0).post (flushAllDoneNotice 0) := by
  have hnil : s.flushable = [] := List.eq_nil_iff_forall_not_mem.2 fun i h => hnone i ((mem_flushable s i).1 h)
  have hempty : (s.finish .ok 0 0).flushAllEmpty = true := (flushAllEmpty_iff (s.finish .ok 0 0)).2 hset
  have hbegun : s.flushAllBegun = (s.finish .ok 0 0).postFlushAll := by
    unfold State.flushAllBegun
    rw [hnil]
    exact if_pos hempty
  have hpost : (s.finish .ok 0 0).postFlushAll = (s.finish .ok 0 0).post (flushAllDoneNotice 0) :=
    postFlushAll_of_none (s := s.finish .ok 0 0) hadded hended
  have hflushed : s.flushedAll = (s.finish .ok 0 0).post (flushAllDoneNotice 0) := by
    unfold State.flushedAll
    rw [hnil, hbegun, hpost]
    rfl
  have hstays : lineWaitRound ((s.finish .ok 0 0).post (flushAllDoneNotice 0)) = (s.finish .ok 0 0).post (flushAllDoneNotice 0) :=
    lineWaitRound_stays (.inr fun i => by rw [sub_congr (post_subs _ _)]; exact hwait i)
  unfold State.flushAllDone State.afterFlushes
  rw [hflushed, hnil, hstays]
  rfl

theorem flushAllNotice : Part.FlushAllNotice := by
  intro s hready
  have hexec := exec_flushAll hready
  refine ⟨fun hnodup hsome => ?_, fun hset hadded hended => ⟨fun hsome hfetch hroom => ?_, fun hnone hwait => ?_⟩⟩
  · obtain ⟨i, hactive, hfetch⟩ := hsome
    have hcount := flushAllDone_added (s := s.args1 9 255) hactive hfetch
    obtain ⟨hkept, hmem⟩ := addedToFlushAll (s.args1 9 255).flushable
      ((s.args1 9 255).finish .ok (BitVec.ofNat 32 (s.args1 9 255).flushable.length) 0) hnodup
    rw [← hcount] at hkept hmem
    exact ⟨_, hexec, hkept, fun j => (hmem j).trans (or_congr_right (mem_flushable _ j))⟩
  · obtain ⟨hempty, hposted⟩ := flushAllDone_posts (s := s.args1 9 255) hset hadded hended hsome hfetch hroom
    exact ⟨_, hexec, hempty, hposted⟩
  · rw [hexec, flushAllDone_of_nothing (s := s.args1 9 255) hset hadded hended hnone hwait]
    rfl

/-- Settles O15. -/
theorem flushCommands : Obligations.FlushCommands := ⟨flushOutcomes, flushAllOutcomes, flushAllNotice⟩

end Sys2Proof.Machine
end

section
/-! PROOFS. A frame read back from its bytes (section 10.1, R191). -/
namespace Sys2Proof.Machine

/-! ### Fields of a word -/

theorem extract_below {m n : Nat} (a : BitVec m) (b : BitVec n) : (a ++ b).extractLsb' 0 n = b :=
  BitVec.eq_of_getLsbD_eq fun i hi => by simp [BitVec.getLsbD_append, hi]

theorem extract_above {m n : Nat} (a : BitVec m) (b : BitVec n) (k l : Nat) :
    (a ++ b).extractLsb' (n + k) l = a.extractLsb' k l :=
  BitVec.eq_of_getLsbD_eq fun i hi => by
    have hlow : ¬ n + k + i < n := by omega
    have hrest : n + k + i - n = k + i := by omega
    simp [BitVec.getLsbD_append, hi, hlow, hrest]

theorem bit_above {m n : Nat} (a : BitVec m) (b : BitVec n) (k : Nat) : (a ++ b).getLsbD (n + k) = a.getLsbD k := by
  have hlow : ¬ n + k < n := by omega
  rw [BitVec.getLsbD_append, if_neg hlow, Nat.add_sub_cancel_left]

theorem bit_ofBool {m : Nat} (a : BitVec m) (x : Bool) : (a ++ BitVec.ofBool x).getLsbD 0 = x := by
  rw [BitVec.getLsbD_append]
  simp

theorem addressHalf_fields (x : Bool) (d s : BitVec 5) (c : BitVec 4) :
    let w : Half := (0#1 ++ BitVec.ofBool x ++ d ++ s ++ c : BitVec (1 + 1 + 5 + 5 + 4))
    w.extractLsb' 0 4 = c ∧ w.extractLsb' 4 5 = s ∧ w.extractLsb' 9 5 = d ∧ w.getLsbD 14 = x := by
  refine ⟨extract_below _ _, ?_, ?_, ?_⟩
  · exact (extract_above _ _ 0 5).trans (extract_below _ _)
  · exact (extract_above _ _ 5 5).trans ((extract_above _ _ 0 5).trans (extract_below _ _))
  · exact (bit_above _ _ 10).trans ((bit_above _ _ 5).trans ((bit_above _ _ 0).trans (bit_ofBool _ _)))

theorem useHalf_fields (u : BitVec 4) (t : BitVec 6) (r : BitVec 3) :
    let w : Half := (0#3 ++ u ++ t ++ r : BitVec (3 + 4 + 6 + 3))
    w.extractLsb' 0 3 = r ∧ w.extractLsb' 3 6 = t ∧ w.extractLsb' 9 4 = u := by
  refine ⟨extract_below _ _, ?_, ?_⟩
  · exact (extract_above _ _ 0 6).trans (extract_below _ _)
  · exact (extract_above _ _ 6 4).trans ((extract_above _ _ 0 4).trans (extract_below _ _))

theorem lastWord_fields (x : Bool) (e : BitVec 4) (l : BitVec 9) (c : BitVec 5) :
    let w : Word := (0#13 ++ BitVec.ofBool x ++ e ++ l ++ c : BitVec (13 + 1 + 4 + 9 + 5))
    w.extractLsb' 0 5 = c ∧ w.extractLsb' 5 9 = l ∧ w.extractLsb' 14 4 = e ∧ w.getLsbD 18 = x := by
  refine ⟨extract_below _ _, ?_, ?_, ?_⟩
  · exact (extract_above _ _ 0 9).trans (extract_below _ _)
  · exact (extract_above _ _ 9 4).trans ((extract_above _ _ 0 4).trans (extract_below _ _))
  · exact (bit_above _ _ 13).trans ((bit_above _ _ 4).trans ((bit_above _ _ 0).trans (bit_ofBool _ _)))

theorem kindOfCode_kindCode (k : FrameKind) : kindOfCode (kindCode k) = some k := by cases k <;> rfl

/-! ### The header -/

/-- The six fields of a header (Table 10-2). -/
def addressHalf (k : FrameKind) (h : Header) : Half :=
  (0#1 ++ BitVec.ofBool h.broadcast ++ h.dest ++ h.source ++ kindCode k : BitVec (1 + 1 + 5 + 5 + 4))

def useHalf (h : Header) : Half := (0#3 ++ h.useCount ++ h.tag ++ h.ring : BitVec (3 + 4 + 6 + 3))

def lastWord (h : Header) : Word :=
  (0#13 ++ BitVec.ofBool h.newest ++ h.reason ++ h.length ++ h.count : BitVec (13 + 1 + 4 + 9 + 5))

theorem headerBytes_eq (k : FrameKind) (h : Header) : headerBytes k h =
    halfBytes (addressHalf k h) ++ halfBytes h.incarnation ++ halfBytes h.epoch ++ halfBytes (useHalf h) ++ wordBytes h.seq ++
      wordBytes (lastWord h) := rfl

theorem headerOf_fields (k : FrameKind) (h : Header) :
    headerOf (addressHalf k h) h.incarnation h.epoch (useHalf h) h.seq (lastWord h) = h := by
  obtain ⟨-, hsource, hdest, hbroadcast⟩ := addressHalf_fields h.broadcast h.dest h.source (kindCode k)
  obtain ⟨hring, htag, huse⟩ := useHalf_fields h.useCount h.tag h.ring
  obtain ⟨hcount, hlength, hreason, hnewest⟩ := lastWord_fields h.newest h.reason h.length h.count
  unfold headerOf
  rw [show (addressHalf k h).extractLsb' 4 5 = h.source from hsource, show (addressHalf k h).extractLsb' 9 5 = h.dest from hdest,
    show (addressHalf k h).getLsbD 14 = h.broadcast from hbroadcast, show (useHalf h).extractLsb' 0 3 = h.ring from hring,
    show (useHalf h).extractLsb' 3 6 = h.tag from htag, show (useHalf h).extractLsb' 9 4 = h.useCount from huse,
    show (lastWord h).extractLsb' 0 5 = h.count from hcount, show (lastWord h).extractLsb' 5 9 = h.length from hlength,
    show (lastWord h).extractLsb' 14 4 = h.reason from hreason, show (lastWord h).getLsbD 18 = h.newest from hnewest]

/-! ### The tail block -/

theorem splitTail_tailBytes (k : FrameKind) (t : TailBlock) (body : List Byte) :
    splitTail k ((if kindHasTail k then tailBytes t else []) ++ body) = some (if kindHasTail k then t else zeroTail, body) := by
  have hstate : ((t.state.setWidth 8 : Byte).extractLsb' 0 2) = t.state :=
    BitVec.eq_of_getLsbD_eq fun i hi => by simp [hi]; omega
  unfold splitTail
  cases kindHasTail k with
  | false => rfl
  | true =>
    simp only [if_true, tailBytes, wordBytes, halfBytes, List.cons_append, List.nil_append, word_wordBytes, half_halfBytes, hstate]

/-! ### The frame -/

theorem readContent_contentBytes (f : Frame) (intact : Bool) : readContent intact (contentBytes f) = some (f.kind,
    { key := arbitrationKey f.kind f.header.source, header := f.header,
      tail := if kindHasTail f.kind then f.tail else zeroTail, body := f.body, intact := intact }) := by
  have hkind : (addressHalf f.kind f.header).extractLsb' 0 4 = kindCode f.kind := (addressHalf_fields _ _ _ _).1
  unfold contentBytes
  rw [headerBytes_eq, List.append_assoc _ _ f.body]
  simp only [halfBytes, wordBytes, List.cons_append, List.nil_append, readContent, word_wordBytes, half_halfBytes, hkind,
    kindOfCode_kindCode, splitTail_tailBytes, headerOf_fields]

theorem wordBytes_length (w : Word) : (wordBytes w).length = 4 := rfl

/-- Settles O60. -/
theorem frameBytesReadBack : Obligations.FrameBytesReadBack := by
  intro f
  have hlen : (frameBytes f).length - 4 = (contentBytes f).length := by
    unfold frameBytes
    rw [List.length_append, wordBytes_length, Nat.add_sub_cancel]
  have htake : (frameBytes f).take (contentBytes f).length = contentBytes f := List.take_left
  have hdrop : (frameBytes f).drop (contentBytes f).length = wordBytes (frameCheck (contentBytes f)) := List.drop_left
  unfold readFrame
  rw [hlen, htake, hdrop]
  dsimp only
  rw [beq_self_eq_true]
  exact readContent_contentBytes f true

end Sys2Proof.Machine
end

section
/-! PROOFS. The content of a LISTING: its images, the entries they fill, and the advance of FP (R68 to R70). -/
namespace Sys2Proof.Machine

/-! ### The images of an accepted LISTING (R194) -/

/-- The images run on from a sequence. -/
def runsFrom (p : Seq) (m : Nat) : List Image → Prop
  | [] => True
  | im :: l => im.seq = p + BitVec.ofNat 32 m ∧ runsFrom p (m + 1) l

theorem runsFrom_of_getElem {p : Seq} : ∀ {l : List Image} {m : Nat},
    (∀ k im, l[k]? = some im → im.seq = p + BitVec.ofNat 32 (m + k)) → runsFrom p m l
  | [], _, _ => trivial
  | im :: l, m, h => ⟨h 0 im rfl, runsFrom_of_getElem fun k x hx => by
      rw [h (k + 1) x hx, Nat.add_right_comm, Nat.add_assoc]⟩

theorem parseImages_length : ∀ (n : Nat) (body : List Byte), body.length = 16 * n → (parseImages body).length = n
  | 0, [], _ => rfl
  | n + 1, b0 :: b1 :: b2 :: b3 :: b4 :: b5 :: b6 :: b7 :: b8 :: b9 :: b10 :: b11 :: b12 :: b13 :: b14 :: b15 :: rest, h => by
    have hrest : rest.length = 16 * n := by
      simp only [List.length_cons] at h
      omega
    exact congrArg Nat.succ (parseImages_length n rest hrest)
  | 0, _ :: _, h => absurd h (by simp)
  | n + 1, [], h => absurd h (by simp)
  | n + 1, [_], h | n + 1, [_, _], h | n + 1, [_, _, _], h | n + 1, [_, _, _, _], h | n + 1, [_, _, _, _, _], h
  | n + 1, [_, _, _, _, _, _], h | n + 1, [_, _, _, _, _, _, _], h | n + 1, [_, _, _, _, _, _, _, _], h
  | n + 1, [_, _, _, _, _, _, _, _, _], h | n + 1, [_, _, _, _, _, _, _, _, _, _], h
  | n + 1, [_, _, _, _, _, _, _, _, _, _, _], h | n + 1, [_, _, _, _, _, _, _, _, _, _, _, _], h
  | n + 1, [_, _, _, _, _, _, _, _, _, _, _, _, _], h | n + 1, [_, _, _, _, _, _, _, _, _, _, _, _, _, _], h
  | n + 1, [_, _, _, _, _, _, _, _, _, _, _, _, _, _, _], h => by
    simp only [List.length_cons, List.length_nil] at h
    omega

theorem images_of_accepted {s : State} {a : Arrival} (h : s.accepts .listing a = true) :
    (bodyImages a.body).length = a.header.count.toNat ∧ runsFrom a.header.seq 0 (bodyImages a.body) ∧
      a.header.count.toNat ≤ 16 := by
  obtain ⟨-, -, -, hwell, -⟩ := (receiveFilter s .listing a).1 h
  obtain ⟨-, -, hbody, -, -, hcount, himages, -⟩ := hwell
  rw [if_pos rfl] at hbody
  refine ⟨?_, runsFrom_of_getElem fun k im hk => ?_, hcount (.inr rfl)⟩
  · unfold bodyImages
    rw [List.length_map]
    exact parseImages_length _ _ hbody
  · unfold bodyImages at hk
    rw [List.getElem?_map, Option.map_eq_some_iff] at hk
    obtain ⟨⟨x, fl⟩, hx, rfl⟩ := hk
    rw [Nat.zero_add]
    exact (himages rfl k x fl hx).1

/-! ### The entries that the images fill (R68) -/

/-- Of `n` sequences from `p`, the first `m` have entries that are HELD, each for its own sequence; the others are ASKED. -/
def State.filled (s : State) (i : SubIdx) (p : Seq) (n m : Nat) : Prop :=
  (∀ k, k < m → ∃ im, s.entryAt i (p + BitVec.ofNat 32 k) = .held im ∧ im.seq = p + BitVec.ofNat 32 k) ∧
  ∀ k, m ≤ k → k < n → s.entryAt i (p + BitVec.ofNat 32 k) = .asked

theorem offset_ne {p : Seq} {j k : Nat} (hj : j < 4294967296) (hk : k < 4294967296) (h : j ≠ k) :
    p + BitVec.ofNat 32 j ≠ p + BitVec.ofNat 32 k := fun e => h (by
  have := congrArg BitVec.toNat ((BitVec.add_right_inj p).1 e)
  rw [BitVec.toNat_ofNat, BitVec.toNat_ofNat] at this
  omega)

theorem offset_dist (p : Seq) {k : Nat} (hk : k < 4294967296) : (p + BitVec.ofNat 32 k - p).toNat = k := by
  rw [add_sub_cancel_left, BitVec.toNat_ofNat]
  exact Nat.mod_eq_of_lt hk

theorem inRange_offset (p : Seq) {n k : Nat} (hn : n < 4294967296) (hk : k < n) :
    inRange p (p + BitVec.ofNat 32 n) (p + BitVec.ofNat 32 k) = true := by
  unfold inRange
  rw [offset_dist p hn, offset_dist p (by omega), decide_eq_true_eq]
  exact hk

theorem acceptImage_eq {s : State} {i : SubIdx} {p : Seq} {n m : Nat} {im : Image} (hn : n < 4294967296) (hm : m < n)
    (hfp : (s.sub i).fp = p) (hap : (s.sub i).ap = p + BitVec.ofNat 32 n) (hseq : im.seq = p + BitVec.ofNat 32 m)
    (hasked : s.entryAt i (p + BitVec.ofNat 32 m) = .asked) :
    acceptImage i p n s im = s.setEntry i im.seq (.held im) := by
  unfold acceptImage
  rw [if_pos]
  rw [hseq, hasked, hfp, hap, inRange_offset p hn hm]
  rfl

theorem setEntry_filled {s : State} {i : SubIdx} {p : Seq} {n m : Nat} {im : Image} (hn : n < 4294967296) (hm : m < n)
    (hseq : im.seq = p + BitVec.ofNat 32 m) (h : s.filled i p n m) : (s.setEntry i im.seq (.held im)).filled i p n (m + 1) := by
  obtain ⟨hheld, hasked⟩ := h
  constructor
  · intro k hk
    by_cases hkm : k = m
    · subst hkm
      refine ⟨im, ?_, hseq⟩
      rw [← hseq]
      refine entryAt_setEntry_self _ ?_
      rw [hseq, hasked k (Nat.le_refl k) hm]
      exact Entry.noConfusion
    · rw [hseq, entryAt_setEntry_ne _ (offset_ne (by omega) (by omega) hkm)]
      exact hheld k (by omega)
  · intro k hk hkn
    rw [hseq, entryAt_setEntry_ne _ (offset_ne (by omega) (by omega) (by omega))]
    exact hasked k (by omega) hkn

/-- The images of a LISTING that runs on from FP are accepted one after the other. -/
theorem images_filled {i : SubIdx} {p : Seq} {n : Nat} (hn : n < 4294967296) : ∀ (l : List Image) (m : Nat) (s : State),
    runsFrom p m l → m + l.length ≤ n → (s.sub i).fp = p → (s.sub i).ap = p + BitVec.ofNat 32 n → s.filled i p n m →
    (l.foldl (acceptImage i p n) s).filled i p n (m + l.length)
  | [], _, _, _, _, _, _, h => h
  | im :: l, m, s, hrun, hlen, hfp, hap, h => by
    obtain ⟨hseq, hrun⟩ := hrun
    rw [List.length_cons] at hlen
    have hm : m < n := by omega
    rw [List.foldl_cons, acceptImage_eq hn hm hfp hap hseq (h.2 m (Nat.le_refl m) hm), List.length_cons, Nat.add_comm l.length 1,
      ← Nat.add_assoc]
    exact images_filled hn l (m + 1) _ hrun (by omega) hfp hap (setEntry_filled hn hm hseq h)

theorem acceptImage_linesOnly (i : SubIdx) (first : Seq) (n : Nat) (s : State) (im : Image) :
    LinesOnly s (acceptImage i first n s im) := by
  unfold acceptImage
  split <;> rfl

theorem images_linesOnly (i : SubIdx) (first : Seq) (n : Nat) : ∀ (l : List Image) (s : State),
    LinesOnly s (l.foldl (acceptImage i first n) s)
  | [], s => .refl s
  | im :: l, s => (acceptImage_linesOnly i first n s im).trans (images_linesOnly i first n l _)

/-! ### The advance of FP (R70) -/

/-- The run of HELD entries ends where the asked ones begin, or at AP. -/
theorem heldRun_filled {s : State} {i : SubIdx} {p : Seq} {n c : Nat} (hn : n < 4294967296) (hc : c ≤ n)
    (hheld : ∀ k, k < c → ∃ im, s.entryAt i (p + BitVec.ofNat 32 k) = .held im)
    (hap : (s.sub i).ap = p + BitVec.ofNat 32 c) : ∀ (fuel m : Nat), m ≤ c → c - m ≤ fuel →
      s.heldRun i fuel (p + BitVec.ofNat 32 m) = p + BitVec.ofNat 32 c
  | 0, m, hm, hfuel => by
    obtain rfl : m = c := by omega
    rfl
  | fuel + 1, m, hm, hfuel => by
    unfold State.heldRun
    rw [hap]
    by_cases h : m = c
    · rw [if_pos (by rw [h]), h]
    · obtain ⟨im, him⟩ := hheld m (by omega)
      have hnext : p + BitVec.ofNat 32 m + 1 = p + BitVec.ofNat 32 (m + 1) := by
        rw [BitVec.ofNat_add, BitVec.add_assoc]
        rfl
      rw [if_neg (offset_ne (by omega) (by omega) h), him]
      dsimp only
      rw [hnext]
      exact heldRun_filled hn hc hheld hap fuel (m + 1) (by omega) (by omega)

theorem advanceFill_sub (s : State) (i : SubIdx) : (s.advanceFill i).sub i =
    { s.sub i with fp := s.heldRun i 384 (s.sub i).fp,
                   pullWait := (s.sub i).pullWait && s.heldRun i 384 (s.sub i).fp == (s.sub i).pp } := sub_modSub_self _ _ _

end Sys2Proof.Machine
end

section
/-! PROOFS. The arrival of a LISTING (R67 to R72). -/
namespace Sys2Proof.Machine

/-! ### The LISTING that answers a FETCH -/

section
variable {a : Arrival} {g : TagIdx} {i : SubIdx} {first : Seq} {n att : Nat} {gen : Byte} {dl : Timer} {s : State}
  (haccepts : s.accepts .listing a = true)
  (ha : s.answers .listing a.header g { sub := i, request := .fetch first n gen, attempts := att, deadline := dl })
  (hinc : a.header.incarnation = (s.sub i).incarnation) (hepoch : a.header.epoch = (s.sub i).epoch)
include haccepts ha hinc hepoch

theorem execListingFrame_of_answers : exec (.listingFrame a) s = if gen = (s.sub i).generation then
    .next (((s.freeTag g).takeListing i first n a).finishFetch i) else .next ((s.freeTag g).finishFetch i) := by
  change execListingFrame a s = _
  unfold execListingFrame
  rw [if_pos haccepts, matchReply_of_answers ha, tag_of_answers ha]
  dsimp only
  rw [show ((s.freeTag g).sub i).replyEnd a.header = none from replyEnd_of_same hinc hepoch]
  rfl

theorem execListingFrame_current (hgen : gen = (s.sub i).generation) :
    exec (.listingFrame a) s = .next (((s.freeTag g).takeListing i first n a).finishFetch i) :=
  (execListingFrame_of_answers haccepts ha hinc hepoch).trans (if_pos hgen)

theorem execListingFrame_stale (hgen : gen ≠ (s.sub i).generation) :
    exec (.listingFrame a) s = .next ((s.freeTag g).finishFetch i) :=
  (execListingFrame_of_answers haccepts ha hinc hepoch).trans (if_neg hgen)

end

/-! ### The end of the FETCH (R72) -/

/-- What follows the end of a FETCH, but for the tests of R40 and R43. -/
def State.fetchEnded (s : State) (i : SubIdx) : State :=
  (lineWaitRound (runGrants ((s.endFetch i).flushTest i))).evaluate [i]

theorem fetchEnded_moves (s : State) (i : SubIdx) : Moves [.seek] ((s.endFetch i).flushTest i) (s.fetchEnded i) :=
  (runGrants_moves _).trans ((lineWaitRound_moves _).trans (evaluate_moves _ _))

theorem fetchEnded_cacheSide (s : State) (i : SubIdx) : CacheSide ((s.endFetch i).flushTest i) (s.fetchEnded i) :=
  (runGrants_cacheSide _).trans ((lineWaitRound_cacheSide _).trans (evaluate_cacheSide _ _))

theorem finishFetch_moves (s : State) (i : SubIdx) : Moves Kind.all ((s.endFetch i).flushTest i) (s.finishFetch i) :=
  ((fetchEnded_moves s i).mono (by decide)).trans (((finishingTest_moves _ i).mono (by decide)).trans (leaveTest_moves _ i))

theorem finishFetch_consumer (s : State) (i : SubIdx) : ConsumerSide s (s.finishFetch i) :=
  ((modSub_cacheSide s i _).consumer.trans (flushTest_consumerSide _ i)).trans (finishFetch_moves s i).consumer

theorem endFetch_flushTest_state (s : State) (i : SubIdx) : (((s.endFetch i).flushTest i).sub i).state = (s.sub i).state := by
  obtain ⟨_, _, _, hrecord⟩ := (flushTest_flushSide (s.endFetch i) i).record
  rw [hrecord, endFetch_sub]

theorem leaveTest_of_not_leaving {s : State} {i : SubIdx} (h : (s.sub i).state ≠ .leaving) : s.leaveTest i = s := by
  unfold State.leaveTest
  rw [beq_eq_false_iff_ne.2 h, Bool.false_and]
  rfl

theorem fetchEnded_state (s : State) (i : SubIdx) : ((s.fetchEnded i).sub i).state = (s.sub i).state :=
  ((fetchEnded_moves s i).seekSame i).state.trans (endFetch_flushTest_state s i)

theorem finishFetch_of_active {s : State} {i : SubIdx} (h : (s.sub i).state = .active) : s.finishFetch i = s.fetchEnded i := by
  have hstate : ((s.fetchEnded i).sub i).state = .active := (fetchEnded_state s i).trans h
  have hfinishing : (s.fetchEnded i).finishingTest i = s.fetchEnded i :=
    finishingTest_of_not_finishing (by rw [hstate]; decide)
  have hdone : s.finishFetch i = ((s.fetchEnded i).finishingTest i).leaveTest i := rfl
  rw [hdone, hfinishing, leaveTest_of_not_leaving (by rw [hstate]; decide)]

/-- What the end of a FETCH leaves of an ACTIVE subscription and the station. -/
structure FetchOver (i : SubIdx) (s t : State) : Prop where
  state    : (t.sub i).state = (s.sub i).state
  pp       : (t.sub i).pp = (s.sub i).pp
  dp       : (t.sub i).dp = (s.sub i).dp
  rm       : (t.sub i).rm = (s.sub i).rm
  kt       : (t.sub i).kt = (s.sub i).kt
  revision : (t.sub i).revision = (s.sub i).revision
  poll     : (t.sub i).poll = (s.sub i).poll
  fill     : t.pdu.fill = s.pdu.fill
  memory   : t.memory = s.memory

theorem finishFetch_over {s : State} {i : SubIdx} (h : (s.sub i).state = .active) : FetchOver i s (s.finishFetch i) := by
  have hflush := flushTest_flushSide (s.endFetch i) i
  obtain ⟨_, _, _, hrecord⟩ := hflush.record
  rw [endFetch_sub] at hrecord
  have hmoves := fetchEnded_moves s i
  have hseek := hmoves.seekSame i
  have htail := hmoves.sameTail i
  obtain ⟨hmemory, hfill⟩ := hmoves.store (by decide)
  rw [hrecord] at hseek htail
  rw [finishFetch_of_active h]
  exact ⟨hseek.state, hseek.pp, hseek.dp, htail.rm, htail.kt, htail.revision, hseek.poll,
    hfill.trans (congrArg Pdu.fill hflush.pdu), hmemory.trans hflush.memory⟩

/-! ### A stale LISTING (R67, R79) -/

/-- While its flush is pending, an ACTIVE subscription asks for nothing. -/
theorem Moves.fetches_of_pending {s t : State} (h : Moves [.seek] s t) {i : SubIdx} (hpending : (s.sub i).flushPending = true) :
    (t.sub i).fetchesOut = (s.sub i).fetchesOut :=
  (h.record (inv := fun b => b.flushPending = true ∧ b.fetchesOut = (s.sub i).fetchesOut) (fun k hk b c hm hb => by
    obtain rfl := List.mem_singleton.1 hk
    obtain ⟨hpending, hout⟩ := hb
    have hnot : b.evaluated ≠ true := by simp [Sub.evaluated, hpending]
    refine ⟨hm.seekSame.flushPending.trans hpending, ?_⟩
    cases hm with
    | same => exact hout
    | seek h =>
      cases h with
      | ask x hmade => exact absurd hmade hnot
      | _ => exact hout
    | grant => exact hout) i ⟨hpending, rfl⟩).2

theorem staleListingDropped : Part.StaleListingDropped := by
  intro a g i q n gen dl att s haccepts ha hgen hstate hinc hepoch
  have hexec := execListingFrame_stale haccepts ha hinc hepoch hgen
  have hactive : ((s.freeTag g).sub i).state = .active := hstate
  have hover := finishFetch_over hactive
  have hmoves := fetchEnded_moves (s.freeTag g) i
  have hside := fetchEnded_cacheSide (s.freeTag g) i
  have hend : ((s.freeTag g).endFetch i).sub i = { s.sub i with fetchesOut := (s.sub i).fetchesOut - 1 } :=
    endFetch_sub (s.freeTag g) i
  refine ⟨s.freeTag g, _, hexec, rfl, rfl, freeTag_tag_self s g, fun x hx => freeTag_tag_ne s hx, fun hpending hout => ?_,
    fun hpending hout howed hroom => ?_, hover.kt, hover.revision, hover.pp, hover.dp, hover.poll, hover.state.trans hactive,
    (finishFetch_consumer (s.freeTag g) i).pub⟩
  · have htest : ((s.freeTag g).endFetch i).flushTest i = (s.freeTag g).endFetch i := flushTest_of_outstanding (by
      rw [hend]
      change (s.sub i).fetchesOut - 1 ≠ 0
      omega)
    rw [htest] at hmoves hside
    rw [finishFetch_of_active hactive]
    refine ⟨?_, ?_, congrArg Lpc.notices hside.lpc⟩
    · rw [hmoves.fetches_of_pending (by rw [hend]; exact hpending), hend]
    · rw [(hmoves.seekSame i).flushPending, hend, hpending]
  · have hpending' : (((s.freeTag g).endFetch i).sub i).flushPending = true := by rw [hend, hpending]
    have hdone : (((s.freeTag g).endFetch i).sub i).fetchesOut = 0 := by rw [hend, hout]
    have howed' : (((s.freeTag g).endFetch i).sub i).flushOwed = true := by rw [hend, howed]
    have hrecord := flushTested_done hpending' hdone
    rw [← flushTest_sub] at hrecord
    obtain ⟨later, hlater⟩ := flushTest_notices hpending' howed' hdone hroom
    have hall := finishFetch_moves (s.freeTag g) i
    obtain ⟨more, hmore⟩ := hall.notices
    refine ⟨hall.flush_done (by rw [hrecord]), (hall.sameTail i).flushOwed.trans (by rw [hrecord]), later ++ more, ?_⟩
    rw [← hmore, hlater, hend, List.append_assoc]
    rfl

end Sys2Proof.Machine
end

section
/-! PROOFS. What a LISTING of the current flush generation brings (R68 to R71). -/
namespace Sys2Proof.Machine

/-! ### What the content leaves alone -/

theorem cutAt_rqt (s : State) (i : SubIdx) (x : Seq) : (s.cutAt i x).rqt = s.rqt := by
  unfold State.cutAt
  split
  · exact (trimLines_linesOnly _ i).rqt
  · rfl

theorem applyTail_rqt (s : State) (i : SubIdx) (t : Seq) (r : Half) : (s.applyTail i t r).rqt = s.rqt := by
  unfold State.applyTail
  dsimp only
  split
  · split
    · rfl
    · split
      · split
        · exact cutAt_rqt _ _ _
        · rfl
      · rfl
  · rfl

theorem enterFinishing_rqt (s : State) (i : SubIdx) (t : Seq) (r : Half) : (s.enterFinishing i t r).rqt = s.rqt := by
  rw [enterFinishing_eq]
  refine (post_rqt _ _).trans ?_
  unfold State.finishingCut
  split
  · exact cutAt_rqt _ _ _
  · rfl

theorem advanceFill_record {s : State} {i : SubIdx} {x : Seq} (h : s.heldRun i 384 (s.sub i).fp = x) :
    ∃ w, (s.advanceFill i).sub i = { s.sub i with fp := x, pullWait := w } := by
  rw [advanceFill_sub, h]
  exact ⟨_, rfl⟩

/-- The content of a LISTING up to its tail block: the images, the cut, the advance of FP. -/
def State.content (s : State) (i : SubIdx) (first : Seq) (count : Nat) (a : Arrival) : State :=
  let s := (bodyImages a.body).foldl (acceptImage i first count) s
  let served := a.header.count.toNat
  let u := first + BitVec.ofNat 32 served
  let s := if served < count ∧ inRange (s.sub i).fp (s.sub i).ap u = true then s.cutAt i u else s
  s.advanceFill i

theorem takeListing_eq (s : State) (i : SubIdx) (first : Seq) (count : Nat) (a : Arrival) :
    s.takeListing i first count a = (s.content i first count a).takeTail i a.tail := rfl

/-- What the content makes of the record and the station: FP and AP, and what the arrival signal clears (R74). -/
structure Content (i : SubIdx) (fp ap : Seq) (s w : State) : Prop where
  record : ∃ x, w.sub i = { s.sub i with fp := fp, ap := ap, pullWait := x }
  rqt    : w.rqt = s.rqt
  side   : CacheSide s w

section
variable {a : Arrival} {i : SubIdx} {p : Seq} {n : Nat} {s : State}

/-- The images of the LISTING, from the state with every asked entry ASKED. -/
theorem listing_filled (haccepts : s.accepts .listing a = true) (hseq : a.header.seq = p) (hfp : (s.sub i).fp = p)
    (hap : (s.sub i).ap = p + BitVec.ofNat 32 n) (hn : n < 4294967296) (hc : a.header.count.toNat ≤ n)
    (hasked : ∀ k, k < n → s.entryAt i (p + BitVec.ofNat 32 k) = .asked) (v : State) (hv : v.dpc = s.dpc) (hsubs : v.subs = s.subs) :
    ((bodyImages a.body).foldl (acceptImage i p n) v).filled i p n a.header.count.toNat := by
  obtain ⟨hlen, hrun, -⟩ := images_of_accepted haccepts
  rw [hseq] at hrun
  have hstart : v.filled i p n 0 := ⟨fun k hk => absurd hk (Nat.not_lt_zero k), fun k _ hk =>
    (entryAt_congr (congrArg Dpc.lines hv) i _).trans (hasked k hk)⟩
  have hfilled := images_filled hn (bodyImages a.body) 0 v hrun (by omega) (by rw [sub_congr hsubs, hfp])
    (by rw [sub_congr hsubs, hap]) hstart
  rw [hlen, Nat.zero_add] at hfilled
  exact hfilled

/-- A LISTING that serves all that was asked. -/
theorem content_full (hfp : (s.sub i).fp = p) (hap : (s.sub i).ap = p + BitVec.ofNat 32 n) (hn : n ≤ 16)
    (hc : a.header.count.toNat = n) (hfilled : ((bodyImages a.body).foldl (acceptImage i p n) s).filled i p n n) :
    Content i (s.sub i).ap (s.sub i).ap s (s.content i p n a) ∧ (s.content i p n a).filled i p n n := by
  have hlines := images_linesOnly i p n (bodyImages a.body) s
  have hcontent : s.content i p n a = ((bodyImages a.body).foldl (acceptImage i p n) s).advanceFill i := by
    unfold State.content
    dsimp only
    rw [if_neg fun h => Nat.ne_of_lt h.1 hc]
  rw [hcontent]
  generalize (bodyImages a.body).foldl (acceptImage i p n) s = v at *
  have hsub := hlines.sub i
  have hrun : v.heldRun i 384 (v.sub i).fp = (s.sub i).ap := by
    have h := heldRun_filled (s := v) (i := i) (p := p) (n := n) (c := n) (by omega) (Nat.le_refl n)
      (fun k hk => (hfilled.1 k hk).imp fun _ h => h.1) (by rw [hsub, hap]) 384 0 (Nat.zero_le n) (by omega)
    rw [hsub, hfp, hap, ← h, BitVec.add_zero]
  obtain ⟨x, hx⟩ := advanceFill_record hrun
  refine ⟨⟨⟨x, ?_⟩, hlines.rqt, ?_⟩, hfilled⟩
  · rw [hx, hsub]
  · rw [hlines]
    exact ⟨rfl, rfl, rfl, rfl, rfl, rfl, rfl⟩

/-- What was asked and is served stands below the cut, within the groups that are needed. -/
theorem cut_served {b : Sub} {p : Seq} {c k : Nat} (hc : c ≤ 16) (hk : k < c) (hdp : (p - b.dp).toNat ≤ 64)
    (hap : b.ap = p + BitVec.ofNat 32 c) :
    b.needsGroup (groupOf (p + BitVec.ofNat 32 k)) = true ∧ ¬ seqUpTo (p + BitVec.ofNat 32 c) (p + BitVec.ofNat 32 k) = true := by
  have hcn : (BitVec.ofNat 32 c).toNat = c := by rw [BitVec.toNat_ofNat]; omega
  have hkn : (BitVec.ofNat 32 k).toNat = k := by rw [BitVec.toNat_ofNat]; omega
  refine ⟨needsGroup_of_inRange ?_ ?_, ?_⟩
  · rw [hap]
    bv_omega
  · rw [hap]
    bv_omega
  · rw [seqUpTo_iff]
    bv_omega

theorem cut_unserved {p : Seq} {c k : Nat} (hk : c ≤ k) (hlt : k < 4294967296) (hnear : k - c < 2147483648) :
    seqUpTo (p + BitVec.ofNat 32 c) (p + BitVec.ofNat 32 k) = true := by
  have hcn : (BitVec.ofNat 32 c).toNat = c := by rw [BitVec.toNat_ofNat]; omega
  have hkn : (BitVec.ofNat 32 k).toNat = k := by rw [BitVec.toNat_ofNat]; omega
  rw [seqUpTo_iff]
  bv_omega

/-- AP and FP after the cut at the first sequence that is not served. -/
theorem seqMin_served {p : Seq} {c n : Nat} (hc : c ≤ n) (hn : n ≤ 16) :
    seqMin (p + BitVec.ofNat 32 n) (p + BitVec.ofNat 32 c) = p + BitVec.ofNat 32 c ∧ seqMin p (p + BitVec.ofNat 32 c) = p := by
  have hcn : (BitVec.ofNat 32 c).toNat = c := by rw [BitVec.toNat_ofNat]; omega
  have hnn : (BitVec.ofNat 32 n).toNat = n := by rw [BitVec.toNat_ofNat]; omega
  constructor
  · exact seqMin_at_start (by bv_omega)
  · refine seqMin_of_upTo ?_
    rw [seqUpTo_iff]
    bv_omega

/-- A LISTING that serves fewer than were asked. -/
theorem content_short (hfp : (s.sub i).fp = p) (hap : (s.sub i).ap = p + BitVec.ofNat 32 n) (hn : n ≤ 16)
    (hc : a.header.count.toNat < n) (hdp : (p - (s.sub i).dp).toNat ≤ 64) (hpp : (p - (s.sub i).pp).toNat ≤ 64)
    (hfilled : ((bodyImages a.body).foldl (acceptImage i p n) s).filled i p n a.header.count.toNat) :
    Content i (p + BitVec.ofNat 32 a.header.count.toNat) (p + BitVec.ofNat 32 a.header.count.toNat) s (s.content i p n a) ∧
      (∀ k, k < a.header.count.toNat → ∃ im, (s.content i p n a).entryAt i (p + BitVec.ofNat 32 k) = .held im ∧
        im.seq = p + BitVec.ofNat 32 k) ∧
      ∀ k, a.header.count.toNat ≤ k → k < n → (s.content i p n a).entryAt i (p + BitVec.ofNat 32 k) = .empty := by
  have hlines := images_linesOnly i p n (bodyImages a.body) s
  have hsub := hlines.sub i
  have hcontent : s.content i p n a = (((bodyImages a.body).foldl (acceptImage i p n) s).cutAt i
      (p + BitVec.ofNat 32 a.header.count.toNat)).advanceFill i := by
    unfold State.content
    dsimp only
    rw [if_pos ⟨hc, by rw [hsub, hfp, hap]; exact inRange_offset p (by omega) hc⟩]
  rw [hcontent]
  generalize a.header.count.toNat = c at *
  generalize (bodyImages a.body).foldl (acceptImage i p n) s = v at *
  have hcn : (BitVec.ofNat 32 c).toNat = c := by rw [BitVec.toNat_ofNat]; omega
  have hpast : seqUpTo (v.sub i).pp (p + BitVec.ofNat 32 c) = true := by
    rw [hsub, seqUpTo_iff]
    bv_omega
  have hrecord : (v.cutAt i (p + BitVec.ofNat 32 c)).sub i = { s.sub i with ap := p + BitVec.ofNat 32 c, fp := p } := by
    obtain ⟨hcap, hcfp⟩ := seqMin_served (p := p) (Nat.le_of_lt hc) hn
    rw [cutAt_sub_self, if_pos hpast, hsub, hap, hcap, hfp, hcfp]
  have hentry := entryAt_cutAt (s := v) (i := i) hpast
  have hcut : (v.sub i).cutAt (p + BitVec.ofNat 32 c) = { s.sub i with ap := p + BitVec.ofNat 32 c, fp := p } := by
    obtain ⟨hcap, hcfp⟩ := seqMin_served (p := p) (Nat.le_of_lt hc) hn
    unfold Sub.cutAt
    rw [hsub, hap, hcap, hfp, hcfp]
  have hheld : ∀ k, k < c → ∃ im, (v.cutAt i (p + BitVec.ofNat 32 c)).entryAt i (p + BitVec.ofNat 32 k) = .held im ∧
      im.seq = p + BitVec.ofNat 32 k := fun k hk => by
    obtain ⟨hneed, hbelow⟩ := cut_served (b := (v.sub i).cutAt (p + BitVec.ofNat 32 c)) (p := p) (c := c) (k := k) (by omega) hk
      (by rw [hcut]; exact hdp) (by rw [hcut])
    rw [hentry, if_pos hneed, if_neg hbelow]
    exact hfilled.1 k hk
  have hempty : ∀ k, c ≤ k → k < n → (v.cutAt i (p + BitVec.ofNat 32 c)).entryAt i (p + BitVec.ofNat 32 k) = .empty :=
    fun k hk hkn => by
      rw [hentry, if_pos (cut_unserved hk (by omega) (by omega)), hfilled.2 k hk hkn]
      exact ite_self _
  have hrqt : (v.cutAt i (p + BitVec.ofNat 32 c)).rqt = s.rqt := (cutAt_rqt v i _).trans hlines.rqt
  have hside : CacheSide s (v.cutAt i (p + BitVec.ofNat 32 c)) := by
    refine CacheSide.trans ?_ (cutAt_cacheSide v i _)
    rw [hlines]
    exact ⟨rfl, rfl, rfl, rfl, rfl, rfl, rfl⟩
  generalize v.cutAt i (p + BitVec.ofNat 32 c) = z at *
  have hzfp : (z.sub i).fp = p := congrArg Sub.fp hrecord
  have hrun : z.heldRun i 384 (z.sub i).fp = p + BitVec.ofNat 32 c := by
    have h := heldRun_filled (s := z) (i := i) (p := p) (n := n) (c := c) (by omega) (by omega)
      (fun k hk => (hheld k hk).imp fun _ h => h.1) (congrArg Sub.ap hrecord) 384 0 (Nat.zero_le c) (by omega)
    rw [hzfp, ← h, BitVec.add_zero]
  obtain ⟨x, hx⟩ := advanceFill_record hrun
  exact ⟨⟨⟨x, hx.trans (congrArg (fun b : Sub => { b with fp := p + BitVec.ofNat 32 c, pullWait := x }) hrecord)⟩, hrqt,
    hside.trans (advanceFill_cacheSide z i)⟩, hheld, hempty⟩

end

end Sys2Proof.Machine
end

section
/-! PROOFS. The outcomes of a LISTING (R67 to R72, R55, R57). -/
namespace Sys2Proof.Machine

/-! ### The tail block of a LISTING that shows OPEN -/

/-- Tail information that cuts nothing: that of the recorded revision, or with a tail not below AP, or older. -/
theorem applyTail_uncut {s : State} {i : SubIdx} {t : Seq} {r : Half} (hstate : (s.sub i).state = .active)
    (h : r = (s.sub i).revision ∨ seqBefore t (s.sub i).ap = false ∨ newer r (s.sub i).revision = false) :
    (s.applyTail i t r).dpc = s.dpc ∧
      ∃ kt revision, (s.applyTail i t r).sub i = { s.sub i with kt := kt, revision := revision } := by
  by_cases hr : r = (s.sub i).revision
  · rw [applyTail_of_same_revision hstate hr]
    exact ⟨rfl, _, _, sub_modSub_self _ _ _⟩
  · cases hnewer : newer r (s.sub i).revision with
    | false =>
      rw [applyTail_of_older hstate hr hnewer]
      exact ⟨rfl, _, _, rfl⟩
    | true =>
      have hbefore : seqBefore t (s.sub i).ap = false := by
        rcases h with h | h | h
        · exact absurd h hr
        · exact h
        · exact absurd (hnewer.symm.trans h) (by decide)
      rw [applyTail_of_newer hstate hr hnewer, hbefore, if_neg Bool.false_ne_true]
      exact ⟨rfl, _, _, sub_modSub_self _ _ _⟩

/-- What a tail block that shows OPEN makes of an ACTIVE subscription. -/
structure OpenTail (i : SubIdx) (t : TailBlock) (w u : State) : Prop where
  rqt   : u.rqt = w.rqt
  side  : CacheSide w u
  state : (u.sub i).state = .active
  pp    : (u.sub i).pp = (w.sub i).pp
  dp    : (u.sub i).dp = (w.sub i).dp
  rm    : (u.sub i).rm = (w.sub i).rm
  poll  : (u.sub i).poll = some w.config.pollInterval
  taken : TailTaken t.tail t.revision (w.sub i) (u.sub i)
  uncut : (t.revision = (w.sub i).revision ∨ seqBefore t.tail (w.sub i).ap = false ∨
      newer t.revision (w.sub i).revision = false) →
    u.dpc = w.dpc ∧ (u.sub i).fp = (w.sub i).fp ∧ (u.sub i).ap = (w.sub i).ap ∧ (u.sub i).fetchesOut = (w.sub i).fetchesOut

theorem takeTail_openTail {w : State} {i : SubIdx} {t : TailBlock} (hstate : (w.sub i).state = .active) (ht : t.state = 1) :
    OpenTail i t w (w.takeTail i t) := by
  have htaken := applyTail_taken hstate t.tail t.revision
  obtain ⟨hsame, hrm⟩ := applyTail_sub w i t.tail t.revision
  have hcache := applyTail_cacheSide w i t.tail t.revision
  have hrqt := applyTail_rqt w i t.tail t.revision
  have huncut := fun h => applyTail_uncut (t := t.tail) (r := t.revision) hstate h
  rw [takeTail_of_open hstate ht]
  generalize w.applyTail i t.tail t.revision = v at *
  have hsub : (v.restartPoll i).sub i = { v.sub i with poll := some w.config.pollInterval } := by
    rw [restartPoll_sub, hcache.consumer.config]
  refine ⟨hrqt, hcache.trans (restartPoll_cacheSide v i), ?_, ?_, ?_, ?_, ?_, ?_, fun h => ?_⟩
  · rw [hsub]
    exact hsame.state.trans hstate
  · rw [hsub]
    exact hsame.pp
  · rw [hsub]
    exact hsame.dp
  · rw [hsub]
    exact hrm
  · rw [hsub]
  · rw [hsub]
    exact ⟨htaken.same, htaken.newer, htaken.older⟩
  · obtain ⟨hdpc, kt, revision, hrecord⟩ := huncut h
    rw [hsub, hrecord]
    exact ⟨hdpc, rfl, rfl, rfl⟩

/-! ### The content of an accepted LISTING -/

/-- What the content of a LISTING makes of the record it is for, its tag and the station. -/
structure Taken (i : SubIdx) (g : TagIdx) (fp ap : Seq) (s w : State) : Prop where
  free     : (w.tag g).bound = none
  side     : CacheSide s w
  fp       : (w.sub i).fp = fp
  ap       : (w.sub i).ap = ap
  state    : (w.sub i).state = (s.sub i).state
  pp       : (w.sub i).pp = (s.sub i).pp
  dp       : (w.sub i).dp = (s.sub i).dp
  rm       : (w.sub i).rm = (s.sub i).rm
  kt       : (w.sub i).kt = (s.sub i).kt
  revision : (w.sub i).revision = (s.sub i).revision
  fetches  : (w.sub i).fetchesOut = (s.sub i).fetchesOut

theorem Content.taken {i : SubIdx} {g : TagIdx} {fp ap : Seq} {s w : State} (h : Content i fp ap (s.freeTag g) w) :
    Taken i g fp ap s w := by
  obtain ⟨⟨x, hrecord⟩, hrqt, hside⟩ := h
  have hsub : (s.freeTag g).sub i = s.sub i := rfl
  rw [hsub] at hrecord
  refine ⟨by rw [tag_congr hrqt g, freeTag_tag_self], (freeTag_cacheSide s g).trans hside, ?_, ?_, ?_, ?_, ?_, ?_, ?_, ?_, ?_⟩
  all_goals rw [hrecord]

section
variable {a : Arrival} {g : TagIdx} {i : SubIdx} {n att : Nat} {dl : Timer} {s : State}
  (haccepts : s.accepts .listing a = true)
  (ha : s.answers .listing a.header g { sub := i, request := .fetch (s.sub i).fp n (s.sub i).generation, attempts := att,
                                        deadline := dl })
  (hinc : a.header.incarnation = (s.sub i).incarnation) (hepoch : a.header.epoch = (s.sub i).epoch)
  (hseq : a.header.seq = (s.sub i).fp) (hap : (s.sub i).ap = (s.sub i).fp + BitVec.ofNat 32 n)
  (hasked : ∀ k, k < n → s.entryAt i ((s.sub i).fp + BitVec.ofNat 32 k) = .asked)
include haccepts ha hinc hepoch hseq hap hasked

theorem listing_full (hcount : a.header.count.toNat = n) :
    ∃ w, exec (.listingFrame a) s = .next ((w.takeTail i a.tail).finishFetch i) ∧ Taken i g (s.sub i).ap (s.sub i).ap s w ∧
      w.filled i (s.sub i).fp n n := by
  have hn : n ≤ 16 := hcount ▸ (images_of_accepted haccepts).2.2
  have hfilled := listing_filled haccepts hseq rfl hap (by omega) (Nat.le_of_eq hcount) hasked (s.freeTag g) rfl rfl
  rw [hcount] at hfilled
  obtain ⟨hcontent, hfilled⟩ := content_full (s := s.freeTag g) rfl hap hn hcount hfilled
  exact ⟨_, execListingFrame_current haccepts ha hinc hepoch rfl, hcontent.taken, hfilled⟩

theorem listing_short (hcount : a.header.count.toNat < n) (hn : n ≤ 16) (hdp : ((s.sub i).fp - (s.sub i).dp).toNat ≤ 64)
    (hpp : ((s.sub i).fp - (s.sub i).pp).toNat ≤ 64) :
    ∃ w, exec (.listingFrame a) s = .next ((w.takeTail i a.tail).finishFetch i) ∧
      Taken i g ((s.sub i).fp + BitVec.ofNat 32 a.header.count.toNat) ((s.sub i).fp + BitVec.ofNat 32 a.header.count.toNat) s w ∧
      (∀ k, k < a.header.count.toNat → ∃ im, w.entryAt i ((s.sub i).fp + BitVec.ofNat 32 k) = .held im ∧
        im.seq = (s.sub i).fp + BitVec.ofNat 32 k) ∧
      ∀ k, a.header.count.toNat ≤ k → k < n → w.entryAt i ((s.sub i).fp + BitVec.ofNat 32 k) = .empty := by
  have hfilled := listing_filled haccepts hseq rfl hap (by omega) (Nat.le_of_lt hcount) hasked (s.freeTag g) rfl rfl
  obtain ⟨hcontent, hheld, hempty⟩ := content_short (s := s.freeTag g) rfl hap hn hcount hdp hpp hfilled
  exact ⟨_, execListingFrame_current haccepts ha hinc hepoch rfl, hcontent.taken, hheld, hempty⟩

end

/-! ### The outcomes for a LISTING that shows OPEN -/

theorem config_of_cacheSide {s t : State} (h : CacheSide s t) : t.config = s.config := h.consumer.config

theorem listingFillsAskedEntries : Part.ListingFillsAskedEntries := by
  intro a g i n dl att s haccepts ha hstate hinc hepoch ht hrevision hseq hcount _ hap hasked
  obtain ⟨w, hexec, htaken, hheld, -⟩ :=
    listing_full haccepts ha hinc hepoch hseq hap hasked hcount
  have htail := takeTail_openTail (htaken.state.trans hstate) ht
  generalize w.takeTail i a.tail = u at hexec htail
  have hsame : a.tail.revision = (w.sub i).revision := hrevision.trans htaken.revision.symm
  obtain ⟨hdpc, hfp, hap', -⟩ := htail.uncut (.inl hsame)
  have hover := finishFetch_over htail.state
  have hcache := htaken.side.trans htail.side
  refine ⟨u, _, hexec, rfl, ?_, hfp.trans htaken.fp, hap'.trans htaken.ap, fun k hk => ?_,
    hover.state.trans htail.state, hover.pp.trans (htail.pp.trans htaken.pp),
    hover.dp.trans (htail.dp.trans htaken.dp), hover.rm.trans (htail.rm.trans htaken.rm), ?_, ?_,
    (hcache.consumer.trans (finishFetch_consumer u i)).pub, ?_, hover.memory.trans hcache.memory⟩
  · rw [tag_congr htail.rqt g, htaken.free]
  · rw [entryAt_congr (congrArg Dpc.lines hdpc)]
    exact hheld k hk
  · rw [hover.kt, (htail.taken.same hsame).2, htaken.kt]
    rfl
  · rw [hover.poll, htail.poll, config_of_cacheSide htaken.side]
  · rw [hover.fill, hcache.pdu]

theorem shortListingCutsAsked : Part.ShortListingCutsAsked := by
  intro a g i n s hlisting ht hcount hkept
  obtain ⟨haccepts, ⟨dl, att, ha⟩, hstate, hinc, hepoch, hseq, hn, hap, hdp, hpp, hasked⟩ := hlisting
  obtain ⟨w, hexec, htaken, hheld, hempty⟩ :=
    listing_short haccepts ha hinc hepoch hseq hap hasked hcount hn hdp (hpp.trans hdp)
  have htail := takeTail_openTail (htaken.state.trans hstate) ht
  generalize w.takeTail i a.tail = u at hexec htail
  have hrevision := htaken.revision
  obtain ⟨hdpc, hfp, hap', hout⟩ := htail.uncut (by
    rw [hrevision, htaken.ap, ← or_assoc]
    exact .inl hkept)
  have hfp' := hfp.trans htaken.fp
  have hlines := congrArg Dpc.lines hdpc
  have hcache := htaken.side.trans htail.side
  obtain ⟨hsame, hnewer, -⟩ := htail.taken
  rw [hrevision] at hsame hnewer
  refine ⟨u, hexec, ?_, hfp', (hap'.trans htaken.ap).trans hfp'.symm, fun k hk => ?_, fun k hk hkn => ?_, fun hr => ?_,
    hnewer, ?_, htail.state, htail.pp.trans htaken.pp, htail.dp.trans htaken.dp,
    hout.trans htaken.fetches, hcache.lpc, hcache.liu, hcache.pub, hcache.pdu, hcache.memory⟩
  · rw [tag_congr htail.rqt g, htaken.free]
  · rw [entryAt_congr hlines]
    exact hheld k hk
  · rw [entryAt_congr hlines]
    exact hempty k hk hkn
  · rw [(hsame hr).2, htaken.kt]
    rfl
  · rw [htail.poll, config_of_cacheSide htaken.side]

/-! ### A LISTING of another revision -/

/-- A newer tail below AP, at or above PP: what lies at or beyond it is given up. -/
theorem takeTail_newer_cut {w : State} {i : SubIdx} {t : TailBlock} (hstate : (w.sub i).state = .active) (ht : t.state = 1)
    (hr : t.revision ≠ (w.sub i).revision) (hnewer : newer t.revision (w.sub i).revision = true)
    (hbefore : seqBefore t.tail (w.sub i).ap = true) (hpp : seqUpTo (w.sub i).pp t.tail = true) :
    ((w.takeTail i t).sub i).fp = seqMin (w.sub i).fp t.tail ∧ ((w.takeTail i t).sub i).ap = seqMin (w.sub i).ap t.tail ∧
      ∀ q, seqUpTo t.tail q = true → ∀ im, (w.takeTail i t).entryAt i q ≠ .held im := by
  have hv : (w.modSub i fun b => { b with kt := t.tail, revision := t.revision }).sub i =
      { w.sub i with kt := t.tail, revision := t.revision } := sub_modSub_self _ _ _
  rw [takeTail_of_open hstate ht, applyTail_of_newer hstate hr hnewer, if_pos hbefore, restartPoll_sub, cutAt_sub_self]
  generalize (w.modSub i fun b => { b with kt := t.tail, revision := t.revision }) = v at *
  have hpp' : seqUpTo (v.sub i).pp t.tail = true := by
    rw [hv]
    exact hpp
  have hentry : ∀ q, ((v.cutAt i t.tail).restartPoll i).entryAt i q = (v.cutAt i t.tail).entryAt i q := fun _ => rfl
  rw [if_pos hpp', hv]
  refine ⟨rfl, rfl, fun q hq im => ?_⟩
  rw [hentry, entryAt_cutAt hpp', if_pos hq]
  split
  · exact cut_ne_held _ im
  · exact Entry.noConfusion

theorem listingOfOtherRevision : Part.ListingOfOtherRevision := by
  intro a g i n s hlisting ht hcount
  obtain ⟨haccepts, ⟨dl, att, ha⟩, hstate, hinc, hepoch, hseq, hn, hap, hdp, hpp, hasked⟩ := hlisting
  obtain ⟨w, hexec, htaken, -⟩ := listing_full haccepts ha hinc hepoch hseq hap hasked hcount
  have hactive := htaken.state.trans hstate
  have htail := takeTail_openTail hactive ht
  have hcut := fun hr hnewer => takeTail_newer_cut (w := w) (i := i) hactive ht hr hnewer
  generalize w.takeTail i a.tail = u at hexec htail hcut
  have hcache := htaken.side.trans htail.side
  have huncut := htail.uncut
  obtain ⟨-, hnewer, holder⟩ := htail.taken
  rw [htaken.revision] at hnewer holder huncut hcut
  rw [htaken.ap] at huncut hcut
  rw [htaken.fp, htaken.pp] at hcut
  rw [htaken.fp] at huncut
  refine ⟨u, hexec, by rw [tag_congr htail.rqt g, htaken.free], fun hlo hhi => ?_, fun hfar => ?_,
    by rw [htail.poll, config_of_cacheSide htaken.side], htail.state, htail.pp.trans htaken.pp, htail.dp.trans htaken.dp, hcache.lpc,
    hcache.liu, hcache.pub, hcache.pdu, hcache.memory⟩
  · obtain ⟨hkt, hrevision⟩ := hnewer hlo hhi
    refine ⟨hkt, hrevision, fun hnot => ?_, fun hbefore hupto => ?_⟩
    · obtain ⟨-, hfp, hap', -⟩ := huncut (.inr (.inl hnot))
      exact ⟨hfp, hap'⟩
    · obtain ⟨hfp, hap', hgone⟩ := hcut (ne_of_sub_toNat_pos hlo) (newer_of_near hlo hhi) hbefore hupto
      have hmin : seqMin (s.sub i).ap a.tail.tail = a.tail.tail := if_pos hbefore
      exact ⟨hfp.trans hmin, hap'.trans hmin, hgone⟩
  · obtain ⟨hkt, hrevision⟩ := holder hfar
    obtain ⟨-, hfp, -, -⟩ := huncut (.inr (.inr (newer_of_far hfar)))
    exact ⟨hkt.trans htaken.kt, hrevision, hfp⟩

/-! ### A LISTING that shows WITHDRAWING -/

/-- Entry to FINISHING with a final tail that AP does not pass: nothing is cut. -/
theorem enterFinishing_uncut {s : State} {i : SubIdx} {t : Seq} (r : Half) (h : seqBefore t (s.sub i).ap = false) :
    ((s.enterFinishing i t r).sub i).fp = (s.sub i).fp ∧ ((s.enterFinishing i t r).sub i).ap = (s.sub i).ap := by
  rw [enterFinishing_sub]
  unfold State.finishingCut State.finishingWith
  rw [h, if_neg Bool.false_ne_true, sub_modSub_self]
  exact ⟨rfl, rfl⟩

theorem not_before_of_upTo {x y : Seq} (h : seqUpTo x y = true) : seqBefore y x = false := by
  rw [seqUpTo_iff] at h
  rw [← Bool.not_eq_true, seqBefore_iff]
  bv_omega

theorem enterFinishing_side (s : State) (i : SubIdx) (t : Seq) (r : Half) :
    (s.enterFinishing i t r).liu = s.liu ∧ (s.enterFinishing i t r).pub = s.pub ∧ (s.enterFinishing i t r).pdu = s.pdu ∧
      (s.enterFinishing i t r).memory = s.memory := by
  have hcut := finishingCut_cacheSide s i t r
  rw [enterFinishing_eq]
  unfold State.postSub
  rw [post_liu, post_pub, post_pdu, post_memory]
  exact ⟨hcut.liu, hcut.pub, hcut.pdu, hcut.memory⟩

theorem listingEntersFinishing : Part.ListingEntersFinishing := by
  intro a g i n s hlisting ht hcount hroom
  obtain ⟨haccepts, ⟨dl, att, ha⟩, hstate, hinc, hepoch, hseq, hn, hap, hdp, hpp, hasked⟩ := hlisting
  obtain ⟨w, hexec, htaken, -⟩ := listing_full haccepts ha hinc hepoch hseq hap hasked hcount
  have hactive := htaken.state.trans hstate
  rw [takeTail_of_withdrawing hactive ht] at hexec
  have hsame := (applyTail_sub w i a.tail.tail a.tail.revision).1
  have hside := htaken.side.trans (applyTail_cacheSide w i a.tail.tail a.tail.revision)
  have hrqt := applyTail_rqt w i a.tail.tail a.tail.revision
  have huncut := fun h => applyTail_uncut (t := a.tail.tail) (r := a.tail.revision) hactive h
  generalize w.applyTail i a.tail.tail a.tail.revision = v at *
  have hpoll := restartPoll_sub v i
  have hside' := hside.trans (restartPoll_cacheSide v i)
  have hrqt' : (v.restartPoll i).rqt = w.rqt := hrqt
  generalize v.restartPoll i = x at *
  obtain ⟨hfinishing, hfinal, hkt, hnone, hpp', hdp'⟩ := enterFinishing_record x i a.tail.tail a.tail.revision
  have hlpc := enterFinishing_lpc (s := x) i a.tail.tail a.tail.revision (by rw [hside'.lpc]; exact hroom)
  obtain ⟨hliu, hpub, hpdu, hmemory⟩ := enterFinishing_side x i a.tail.tail a.tail.revision
  have hkept := fun h => enterFinishing_uncut (s := x) (i := i) (t := a.tail.tail) a.tail.revision h
  have hrqt'' := enterFinishing_rqt x i a.tail.tail a.tail.revision
  generalize x.enterFinishing i a.tail.tail a.tail.revision = u at *
  refine ⟨u, _, hexec, rfl, ?_, hfinishing, hfinal, hkt, hnone, ?_, ?_, fun hupto => ?_, ?_, hliu.trans hside'.liu,
    hpub.trans hside'.pub, hpdu.trans hside'.pdu, hmemory.trans hside'.memory, ?_,
    (finishFetch_consumer u i).pub.trans (hpub.trans hside'.pub)⟩
  · rw [tag_congr (hrqt''.trans hrqt') g, htaken.free]
  · rw [hpp', hpoll]
    exact hsame.pp.trans htaken.pp
  · rw [hdp', hpoll]
    exact hsame.dp.trans htaken.dp
  · have hbefore := not_before_of_upTo hupto
    obtain ⟨-, kt, revision, hrecord⟩ := huncut (.inr (.inl (by rw [htaken.ap]; exact hbefore)))
    rw [hpoll, hrecord, htaken.ap, htaken.fp] at hkept
    exact hkept hbefore
  · rw [hlpc, hside'.lpc]
  · exact (finishFetch_moves u i).state_of_finishing ((endFetch_flushTest_state u i).trans hfinishing)

/-- Settles O42. -/
theorem listingOutcomes : Obligations.ListingOutcomes :=
  ⟨listingFillsAskedEntries, shortListingCutsAsked, listingOfOtherRevision, listingEntersFinishing, staleListingDropped⟩

end Sys2Proof.Machine
end
